-- ==== Sys2Proof/Word.lean ====
section
/-! DEFINITION. The word types of the coder: bytes as they travel (R184), arrays of fixed length, and tables of
numbered records kept as sorted key and value pairs. -/

namespace Sys2Proof

/-- The eight data bits of a character (R165, R184). -/
abbrev Byte := BitVec 8

/-- A fixed number of like things (boards, panels, slots, contacts, sensors), as plain data. -/
structure Vec (α : Type) (n : Nat) where
  toList : List α
  size_eq : toList.length = n
deriving DecidableEq, Repr

/-- The item at a place. -/
def Vec.get {α : Type} {n : Nat} (v : Vec α n) (i : Fin n) : α :=
  v.toList[i.val]'(by rw [v.size_eq]; exact i.isLt)

/-- The array with one item replaced. -/
def Vec.set {α : Type} {n : Nat} (v : Vec α n) (i : Fin n) (a : α) : Vec α n :=
  ⟨v.toList.set i.val a, by rw [List.length_set]; exact v.size_eq⟩

/-- The array that holds one value everywhere. -/
def Vec.fill {α : Type} (n : Nat) (a : α) : Vec α n := ⟨List.replicate n a, List.length_replicate⟩

/-- The array of the values of a function of the place. -/
def Vec.tabulate {α : Type} {n : Nat} (f : Fin n → α) : Vec α n := ⟨List.ofFn f, List.length_ofFn⟩

/-- Every item changed by a function of its place and value. -/
def Vec.mapIdx {α β : Type} {n : Nat} (f : Fin n → α → β) (v : Vec α n) : Vec β n :=
  Vec.tabulate fun i => f i (v.get i)

/-- One item changed by a function of its value. -/
def Vec.update {α : Type} {n : Nat} (v : Vec α n) (i : Fin n) (f : α → α) : Vec α n :=
  v.set i (f (v.get i))

/-- A table of numbered records (R48): (number, record) pairs, numbers strictly rising, absent records unlisted. -/
abbrev Table (α : Type) := List (Nat × α)

/-- The canonical form of a table: numbers strictly rising, so that equal tables are equal data. -/
abbrev Table.wf {α : Type} (t : Table α) : Prop := t.Pairwise fun a b => a.1 < b.1

/-- A natural number as a place of an array, where it is one. -/
def finOf? (n k : Nat) : Option (Fin n) := if h : k < n then some ⟨k, h⟩ else none

end Sys2Proof
end

