-- ==== Sys2Proof/Config.lean ====
section
/-! DEFINITION. What the manual leaves open: one uninterpreted family of free bytes. -/

namespace Sys2Proof.Config

/-- The byte the coder puts at a place of a report for which the manual states no value (log entry 1): the value
bytes of an absent optional field and the unassigned bits of the presence byte in a BOARD report, the unassigned
flag bits of a DEVICE report, and the applied level of an ABSENT panel. `State.freeCount` indexes it, so that
every build reads fresh bytes. It has no body: nothing can be proved of its values. -/
opaque freeByte : Nat → Byte

end Sys2Proof.Config
end

