-- ==== Sys2Proof/Syntax.lean ====
section
/-! DEFINITION. The commands of the coder: one constructor per row of spec/opcode_table.json. A cell that reaches its
owner carries its body fields as the numbers the cell held, in range or not, so that the owner's checks are the
model's; an event of a pin, a timer or a count names the item it happens to. -/

namespace Sys2Proof

/-- The two panel buses (R140). -/
inductive Bus where
  | busA | busB
deriving DecidableEq, Repr

/-- The two lines the Trunk Port hears (R166). -/
inductive Lane where
  | trunkIn | returnIn
deriving DecidableEq, Repr

/-- An electrical level (R112). -/
inductive Level where
  | low | high
deriving DecidableEq, Repr

/-- A character as a receiver sees it: data bits, marker bit, and whether its stop bit was good (R165, R166). -/
structure LineChar where
  data : Byte
  marker : Bool
  goodStop : Bool
deriving DecidableEq, Repr

/-- A MESSAGE zone of the zone table, or the synthetic message zone of a panel in the EMERGENCY view (R101). -/
inductive MsgZone where
  | zone (z : Fin 192)
  | synthetic (p : Fin 16)
deriving DecidableEq, Repr

/-- The body of an ENTRY cell, every field at its place whether present or not (R185). -/
structure EntryBody where
  board : Nat
  sid : Nat
  presence : Byte
  dest : Nat
  via : Nat
  platform : Nat
  sched : Nat
  expected : Nat
  status : Nat
  cars : Nat
deriving DecidableEq, Repr

/-- The body of a MESSAGE cell: the fixed part, and the bytes that follow it, which its owner checks (R107). -/
structure MessageBody where
  slot : Nat
  priority : Nat
  mask : BitVec 16
  duration : Nat
  font : Nat
  count : Nat
  tail : List Byte
deriving DecidableEq, Repr

/-- The commands, one constructor per row of spec/opcode_table.json, in its order. -/
inductive Instr where
  | entry (body : EntryBody)
  | withdraw (board sid : Nat)
  | clearBoard (board : Nat)
  | time (second : Nat)
  | minutePulse
  | timebaseSecond
  | stalePeriodPassed (board : Fin 8) (sid : Nat)
  | clockDrifting
  | silent
  | languageFlip
  | swapApplied
  | messageDurationExpiry (slot : Fin 8)
  | pageTurn (zone : Fin 192)
  | messageDwellExpiry (zone : MsgZone)
  | tileStep (zone : Fin 192)
  | scrollStep (zone : MsgZone)
  | message (body : MessageBody)
  | messageEnd (slot : Nat)
  | contactChange (contact : Fin 4) (level : Level)
  | filterExpiry (contact : Fin 4)
  | settlingExpiry (contact : Fin 4)
  | ackAlert (contact : Nat)
  | mode (value : Nat)
  | tableLoad (table index : Nat) (record : List Byte)
  | bankCopy
  | bankCopyComplete
  | bankClear
  | bankSwap
  | setDepartureHold (value : Nat)
  | setCancelHold (value : Nat)
  | setStalePeriod (value : Nat)
  | setCountdownLimit (value : Nat)
  | setDelayThreshold (value : Nat)
  | setLanguageDwell (value : Nat)
  | setSilenceLimit (value : Nat)
  | setRefreshCycle (value : Nat)
  | setBusRate (bus : Bus) (value : Nat)
  | setBusEnable (bus : Bus) (value : Nat)
  | setHoldLimit (value : Nat)
  | setSensorFallbackLevel (value : Nat)
  | setContactEnable (contact : Fin 4) (value : Nat)
  | setContactMode (contact : Fin 4) (value : Nat)
  | setContactPolarity (contact : Fin 4) (value : Nat)
  | setContactFilter (contact : Fin 4) (value : Nat)
  | setContactPanelMask (contact : Fin 4) (value : Nat)
  | setContactAlertString (contact : Fin 4) (value : Nat)
  | setUnknownSetting (number value : Nat)
  | queryDevice (item : Nat)
  | queryBoard (item : Nat)
  | queryPanel (item : Nat)
  | queryBank (item : Nat)
  | queryInputs (item : Nat)
  | querySettings (item : Nat)
  | restart (broadcast : Bool)
  | externalReset
  | cellAbandoned (lane : Lane) (char : LineChar)
  | trunkCell (cell : List Byte)
  | returnCell (cell : List Byte)
  | trunkOutCellSent
  | returnOutCellSent
  | lightSample (s0 s1 s2 s3 : Byte)
  | sensorFailed (sensor : Fin 4)
  | sensorRestored (sensor : Fin 4) (sample : Byte)
  | frameChoice (bus : Bus)
  | frameSent (bus : Bus)
  | panelAnswer (bus : Bus) (data : Byte) (marker : Bool)
  | panelFault (panel : Fin 16)
  | answerTimeout (bus : Bus)
  | clockLineLow (bus : Bus)
  | clockLineRelease (bus : Bus)
  | holdTimeout (bus : Bus)
  | classGapExpiry (panel : Fin 16)
  | probeDue (panel : Fin 16)
  | characterArrival (lane : Lane) (char : LineChar)
  | queryUnknownKind (kind item : Nat)
deriving DecidableEq, Repr

end Sys2Proof
end

