-- ==== Sys2Proof/WellFormed.lean ====
section
/-! DEFINITION. Which commands can be sent at all: every field fits the place its cell gives it (R185, R187), a cell
has the shape of a cell (R165), and a row that names a class of commands holds one of that class. -/

namespace Sys2Proof

/-- A value that fits so many bytes. -/
def fitsBytes (n v : Nat) : Bool := decide (v < 256 ^ n)

/-- Every field of an ENTRY body fits its place (R185). -/
def EntryBody.wf (b : EntryBody) : Bool :=
  fitsBytes 1 b.board && fitsBytes 2 b.sid && fitsBytes 2 b.dest && fitsBytes 2 b.via && fitsBytes 1 b.platform &&
    fitsBytes 3 b.sched && fitsBytes 3 b.expected && fitsBytes 1 b.status && fitsBytes 1 b.cars

/-- Every field of a MESSAGE body fits its place, and the cell is no longer than a cell can be (R165, R185). -/
def MessageBody.wf (b : MessageBody) : Bool :=
  fitsBytes 1 b.slot && fitsBytes 1 b.priority && fitsBytes 2 b.duration && fitsBytes 1 b.font && fitsBytes 1 b.count &&
    decide (b.tail.length ≤ 242)

/-- The setting numbers that name a setting (R186): 0 to 13, and 16 + 6n + k up to 39. -/
def namesSetting (number : Nat) : Bool := decide (number ≤ 13) || (decide (16 ≤ number) && decide (number ≤ 39))

/-- A whole cell (R165): kind, destination, length, as many body characters as the length says (0 to 250), check. -/
def cellShape (cell : List Byte) : Bool :=
  match cell with
  | _ :: _ :: len :: rest => decide (len.toNat ≤ 250) && decide (rest.length = len.toNat + 1)
  | _ => false

/-- Whether a command can be sent. -/
def Instr.wf : Instr → Bool
  | .entry b => b.wf
  | .withdraw board sid => fitsBytes 1 board && fitsBytes 2 sid
  | .clearBoard board => fitsBytes 1 board
  | .time second => fitsBytes 3 second
  | .message b => b.wf
  | .messageEnd slot => fitsBytes 1 slot
  | .ackAlert contact => fitsBytes 1 contact
  | .mode value => fitsBytes 1 value
  | .tableLoad table index record => fitsBytes 1 table && fitsBytes 2 index && decide (record.length ≤ 247)
  | .setDepartureHold v | .setCancelHold v | .setStalePeriod v | .setCountdownLimit v | .setDelayThreshold v
  | .setLanguageDwell v | .setSilenceLimit v | .setRefreshCycle v | .setBusRate _ v | .setBusEnable _ v
  | .setHoldLimit v | .setSensorFallbackLevel v | .setContactEnable _ v | .setContactMode _ v
  | .setContactPolarity _ v | .setContactFilter _ v | .setContactPanelMask _ v | .setContactAlertString _ v =>
    fitsBytes 4 v
  | .setUnknownSetting number v => fitsBytes 1 number && fitsBytes 4 v && !namesSetting number
  | .queryDevice item | .queryBoard item | .queryPanel item | .queryBank item | .queryInputs item
  | .querySettings item => fitsBytes 1 item
  | .queryUnknownKind kind item => fitsBytes 1 kind && fitsBytes 1 item && decide (5 < kind)
  | .trunkCell cell | .returnCell cell => cellShape cell
  | .sensorRestored _ sample => decide (sample ≠ 255)
  | .minutePulse | .timebaseSecond | .stalePeriodPassed _ _ | .clockDrifting | .silent | .languageFlip | .swapApplied
  | .messageDurationExpiry _ | .pageTurn _ | .messageDwellExpiry _ | .tileStep _ | .scrollStep _ | .contactChange _ _
  | .filterExpiry _ | .settlingExpiry _ | .bankCopy | .bankCopyComplete | .bankClear | .bankSwap | .restart _
  | .externalReset | .cellAbandoned _ _ | .trunkOutCellSent | .returnOutCellSent | .lightSample _ _ _ _
  | .sensorFailed _ | .frameChoice _ | .frameSent _ | .panelAnswer _ _ _ | .panelFault _ | .answerTimeout _
  | .clockLineLow _ | .clockLineRelease _ | .holdTimeout _ | .classGapExpiry _ | .probeDue _
  | .characterArrival _ _ => true

end Sys2Proof
end

