-- ==== Sys2Proof/Machine/State.lean ====
section
/-! DEFINITION. The state of the coder: everything the manual gives the eleven blocks (chapter 00), as plain data, the
queue of waiting commands, and the machine right after an external reset. -/

namespace Sys2Proof.Machine

/-! ## Departure boards (chapter 1) -/

/-- The posted status of an entry (R2). -/
inductive Status where
  | normal | cancelled | held | arriving
deriving DecidableEq, Repr

/-- A shown time field with the number it carries (R37). -/
inductive TimeField where
  | due
  | minutes (m : Nat)
  | clock (x : Nat)
  | staleClock (x : Nat)
  | cancelled
  | held
  | arriving
deriving DecidableEq, Repr

/-- A shown role (R2, R37). -/
inductive ShownRole where
  | time | delayed | cancelled | stale
deriving DecidableEq, Repr

/-- One departure of a board (R2). -/
structure Entry where
  sid : Nat
  dest : Nat
  via : Option Nat
  platform : Option Nat
  sched : Nat
  expected : Option Nat
  status : Status
  cars : Option Nat
  lastService : Bool
  age : Nat
  field : TimeField
  role : ShownRole
deriving DecidableEq, Repr

/-! ## Station Clock (chapter 2) -/

/-- The clock states (R26). -/
inductive ClockState where
  | unset | synced | drifting | held
deriving DecidableEq, Repr

/-- The Station Clock: value, state, synchronisation age (R26). -/
structure StationClock where
  value : Nat
  state : ClockState
  age : Nat
deriving DecidableEq, Repr

/-! ## Table Store (chapter 3) -/

/-- A colour number 0 to 15 (R71). -/
abbrev Colour := Fin 16

/-- The eight colour roles, in role-code order (R54, R187). -/
inductive ColourRole where
  | text | destination | time | delayed | cancelled | stale | message | emergency
deriving DecidableEq, Repr

/-- Alignments (R57, R187). -/
inductive Align where
  | left | right | centre
deriving DecidableEq, Repr

/-- Zone language modes (R77). -/
inductive Language where
  | primary | alternate
deriving DecidableEq, Repr

/-- Message priorities, rising (R97, R106). -/
inductive Priority where
  | normal | service | emergency
deriving DecidableEq, Repr

/-- A font record (R51). -/
structure Font where
  height : Nat
  spacing : Nat
  digitBase : Nat
deriving DecidableEq, Repr

/-- A glyph record: width, the row count of its font at loading, and rows of ⌈width ÷ 8⌉ bytes (R52, R187). -/
structure Glyph where
  width : Nat
  rowCount : Nat
  rows : List Byte
deriving DecidableEq, Repr

/-- A string record: glyph codes of the primary and, where present, the secondary variant (R53). -/
structure Str where
  primary : List Nat
  secondary : Option (List Nat)
deriving DecidableEq, Repr

/-- A palette record: 16 colours of r, g, b as 48 bytes, and 8 role indices (R54). -/
structure Palette where
  colours : List Byte
  roles : List Colour
deriving DecidableEq, Repr

/-- A tile: the 128 bytes of each loaded segment, two pixels to the byte (R55). -/
structure Tile where
  upper : Option (List Byte)
  lower : Option (List Byte)
deriving DecidableEq, Repr

/-- Field kinds of a column (R57, R84). -/
inductive FieldKind where
  | destination | via | platform | scheduled | time | cars
deriving DecidableEq, Repr

/-- One column of a row format (R57). -/
structure Column where
  field : FieldKind
  xOffset : Nat
  width : Nat
  align : Align
  role : ColourRole
deriving DecidableEq, Repr

/-- A panel's dim group (R72). -/
inductive DimGroup where
  | sensor (n : Fin 4)
  | fixed (level : Nat)
deriving DecidableEq, Repr

/-- A panel's override policy (R73). -/
inductive Policy where
  | full | zones
deriving DecidableEq, Repr

/-- A present panel record (R58). -/
structure PanelRow where
  bus : Bus
  address : Nat
  width : Nat
  height : Nat
  palette : Nat
  background : Colour
  busClass : Nat
  dim : DimGroup
  policy : Policy
  emergencyFont : Nat
  emergencyInterval : Nat
  fallback : Option Nat
deriving DecidableEq, Repr

/-- The kind-specific fields of a zone (R59). -/
inductive ZoneKind where
  | rows (board : Fin 8) (format first rows gap pages dwell : Nat)
  | message (floor : Priority) (interval dwell : Nat) (idle : Option Nat)
  | clock (seconds : Bool) (align : Align)
  | tile (first last dwell : Nat)
  | text (string : Nat) (align : Align) (role : ColourRole)
deriving DecidableEq, Repr

/-- A present zone record; a TRANSPARENT fill is `none` (R59). -/
structure Zone where
  kind : ZoneKind
  x : Nat
  y : Nat
  w : Nat
  h : Nat
  font : Nat
  fill : Option ColourRole
  language : Language
deriving DecidableEq, Repr

/-- One bank: the nine tables of R48 and the pool usage. -/
structure Bank where
  fonts : Table Font
  glyphs : Table Glyph
  strings : Table Str
  palettes : Table Palette
  tiles : Table Tile
  curve : Option (List (Nat × Nat))
  formats : Table (List Column)
  panels : Table PanelRow
  zones : Table Zone
  pool : Nat
deriving DecidableEq, Repr

/-- The bank of which every record is absent (R48, R66). -/
def Bank.empty : Bank := ⟨[], [], [], [], [], none, [], [], [], 0⟩

/-- Which of the two banks (R46). -/
inductive BankId where
  | a | b
deriving DecidableEq, Repr

/-- Standby states (R47). -/
inductive StandbyState where
  | clean | loaded | copying | faulted
deriving DecidableEq, Repr

/-- The Table Store (R46, R47). The copy timer, where it runs, holds the milliseconds it was started with. -/
structure TableStore where
  bankA : Bank
  bankB : Bank
  active : BankId
  standby : StandbyState
  swapPending : Bool
  copyTimer : Option Nat
deriving DecidableEq, Repr

/-! ## Message Unit and Contact Inputs (chapter 6) -/

/-- A slot's text: glyph codes, or the number of an alert string (R106). -/
inductive MessageText where
  | codes (l : List Nat)
  | string (number : Nat)
deriving DecidableEq, Repr

/-- A message record (R106). -/
structure MessageRecord where
  priority : Priority
  mask : BitVec 16
  font : Nat
  text : MessageText
deriving DecidableEq, Repr

/-- A message slot; the remaining duration of an ACTIVE slot is `none` for UNTIL_ENDED (R106). -/
inductive Slot where
  | free
  | active (record : MessageRecord) (remaining : Option Nat)
  | locked (record : MessageRecord)
deriving DecidableEq, Repr

/-- Contact states (R112). -/
inductive ContactState where
  | disabled | settling | watching
deriving DecidableEq, Repr

/-- The mask and string an alert took when it was raised (R112, R114). -/
structure Alert where
  mask : BitVec 16
  string : Nat
deriving DecidableEq, Repr

/-- One contact; a running timer holds the milliseconds it was started with (R112, R117). -/
structure Contact where
  raw : Level
  filtered : Level
  filterTimer : Option Nat
  state : ContactState
  settlingTimer : Option Nat
  latch : Option Alert
deriving DecidableEq, Repr

/-! ## Zone Sequencer (chapters 5 and 6) -/

/-- The device language phase (R104). -/
inductive Phase where
  | primary | secondary
deriving DecidableEq, Repr

/-- Panel views (R120). -/
inductive PanelView where
  | normal | emergency | blank | test | fallback
deriving DecidableEq, Repr

/-- What a MESSAGE zone shows (R97). -/
inductive Showing where
  | slot (n : Fin 8)
  | idle
  | empty
deriving DecidableEq, Repr

/-- The runtime of a MESSAGE zone: the step timer holds its interval while it runs, the dwell counter its seconds
still to run (R90, R91, R95, R96). -/
structure MessageRuntime where
  showing : Showing
  cursor : Fin 8
  offset : Nat
  stepTimer : Option Nat
  dwell : Option Nat
deriving DecidableEq, Repr

/-- The text a CLOCK zone last drew: UNSET, or its digits (R90, R103). -/
inductive ClockText where
  | unset
  | digits (l : List Nat)
deriving DecidableEq, Repr

/-- The runtime record of a zone that has one; a VACANT row record is `none` (R90). -/
inductive ZoneRuntime where
  | page (index : Nat) (snapshot : List (Option Nat)) (dwell : Nat)
  | message (rt : MessageRuntime)
  | clock (drawn : ClockText)
  | tile (current dwell : Nat)
deriving DecidableEq, Repr

/-- The Zone Sequencer (R90, R101, R104, R120). An absent panel holds no view. -/
structure Sequencer where
  phase : Phase
  langCount : Nat
  runtimes : Table ZoneRuntime
  views : Vec (Option PanelView) 16
  synthetic : Vec (Option MessageRuntime) 16
deriving DecidableEq, Repr

/-! ## Line Coder (chapter 7) -/

/-- The Line Coder: per panel the dirty-line set, rising with no line twice, and the refresh cursor (R124, R127). -/
structure LineCoder where
  dirty : Vec (List Nat) 16
  cursor : Vec Nat 16
deriving DecidableEq, Repr

/-! ## Panel Bus Controllers (chapter 8) -/

/-- Panel states (R142). -/
inductive PanelState where
  | absent | starting | online | fault
deriving DecidableEq, Repr

/-- View commands (R121, R142). -/
inductive ViewCommand where
  | blank | unblank
deriving DecidableEq, Repr

/-- The panel-bus record of a panel; the class gap timer, where it runs, holds its milliseconds (R142). -/
structure PanelBusRecord where
  state : PanelState
  failures : Nat
  gapTimer : Option Nat
  probeTimer : Option Nat
  probeDue : Bool
  viewCommand : Option ViewCommand
  palettePending : Bool
deriving DecidableEq, Repr

/-- The work a frame carries (R144). -/
inductive FrameWork where
  | line (y : Nat)
  | palette
  | view (c : ViewCommand)
deriving DecidableEq, Repr

/-- A character as a line carries it: eight data bits and the marker bit, on a panel bus (R141, R189) or as the coder
sends it on the trunk (R165). -/
structure BusChar where
  data : Byte
  marker : Bool
deriving DecidableEq, Repr

/-- A frame with the panel it is for and the address it carries; `rate` is the rate it started at (R141), and
`orphaned` says that a swap has left its panel absent, or at another bus or address (R154). -/
structure Frame where
  panel : Fin 16
  address : Nat
  work : FrameWork
  chars : List BusChar
  rate : Option Nat
  orphaned : Bool
deriving DecidableEq, Repr

/-- Bus states (R140). -/
inductive BusState where
  | idle | sending | awaiting | held
deriving DecidableEq, Repr

/-- The state of one panel bus; a running timer holds its milliseconds (R140). -/
structure PanelBus where
  state : BusState
  inFlight : Option Frame
  codedAhead : Option Frame
  marker : Fin 16
  answerTimer : Option Nat
  holdTimer : Option Nat
deriving DecidableEq, Repr

/-- One thing for each of the buses A and B. -/
structure PerBus (α : Type) where
  a : α
  b : α
deriving DecidableEq, Repr

/-- The item of a bus. -/
def PerBus.get {α : Type} (p : PerBus α) : Bus → α
  | .busA => p.a
  | .busB => p.b

/-- The pair with one bus's item replaced. -/
def PerBus.set {α : Type} (p : PerBus α) (bus : Bus) (x : α) : PerBus α :=
  match bus with
  | .busA => { p with a := x }
  | .busB => { p with b := x }

/-! ## Light Unit (chapter 9) -/

/-- Sensor states (R156). -/
inductive SensorState where
  | good | failed
deriving DecidableEq, Repr

/-- One sensor (R156). -/
structure Sensor where
  seeded : Bool
  accumulator : Nat
  lastSample : Nat
  state : SensorState
  run : Nat
deriving DecidableEq, Repr

/-- From what an applied level was last set (R158). -/
inductive LevelSource where
  | curve | fallback
deriving DecidableEq, Repr

/-- The applied level of a sensor group with its source (R158). -/
structure Group where
  level : Nat
  source : LevelSource
deriving DecidableEq, Repr

/-- The Light Unit (R156, R158). -/
structure LightUnit where
  sensors : Vec Sensor 4
  groups : Vec Group 4
deriving DecidableEq, Repr

/-! ## Trunk Port (chapter 10) -/

/-- A receiver: HUNT, or COLLECT with the characters so far; the third of them is the length (R166). -/
inductive Receiver where
  | hunt
  | collect (chars : List Byte)
deriving DecidableEq, Repr

/-- The two queues the return arbiter serves (R172). -/
inductive ReturnQueue where
  | relay | own
deriving DecidableEq, Repr

/-- A cell as a trunk line sends it: its characters with their marker bits, and the rate in bit/s (R165). -/
structure Transmission where
  chars : List BusChar
  rate : Nat
deriving DecidableEq, Repr

/-- The Trunk Port. TRUNK_OUT sends the head of `forward` whenever there is one (R170); `sending` names the queue
whose head is going out on RETURN_OUT (R172); `trunkOut` and `returnOut` are what the two lines are sending, where they do
not rest (R165); `node` and `rateCode` are the straps as last read (R165). -/
structure TrunkPort where
  rxTrunk : Receiver
  rxReturn : Receiver
  forward : List (List Byte)
  relay : List (List Byte)
  own : List (List Byte)
  sending : Option ReturnQueue
  lastServed : ReturnQueue
  trunkOut : Option Transmission
  returnOut : Option Transmission
  silence : Nat
  silent : Bool
  abandoned : Nat
  checkFailures : Nat
  node : Fin 128
  rateCode : Fin 4
deriving DecidableEq, Repr

/-! ## Management Unit (chapter 11) -/

/-- Device modes (R118). -/
inductive DeviceMode where
  | run | night | test
deriving DecidableEq, Repr

/-- Contact modes (R112). -/
inductive ContactMode where
  | edge | level
deriving DecidableEq, Repr

/-- Contact polarities (R112). -/
inductive Polarity where
  | activeLow | activeHigh
deriving DecidableEq, Repr

/-- The six settings of a contact (R177). -/
structure ContactSettings where
  enable : Bool
  mode : ContactMode
  polarity : Polarity
  filter : Nat
  mask : BitVec 16
  alertString : Nat
deriving DecidableEq, Repr

/-- The 38 settings (R177). -/
structure Settings where
  departureHold : Nat
  cancelHold : Nat
  stalePeriod : Nat
  countdownLimit : Nat
  delayThreshold : Nat
  languageDwell : Nat
  silenceLimit : Nat
  refreshCycle : Nat
  busRate : PerBus Nat
  busEnable : PerBus Bool
  holdLimit : Nat
  fallbackLevel : Nat
  contacts : Vec ContactSettings 4
deriving DecidableEq, Repr

/-- The sticky flags (R179). -/
structure Flags where
  overflow : Vec Bool 8
  fwdDrop : Bool
  relayDrop : Bool
  replyDrop : Bool
  newDay : Bool
  pulseDiscord : Bool
  settingClamped : Bool
deriving DecidableEq, Repr

/-- Refusal reasons, in the order of their codes 1 to 9 (R188). -/
inductive Reason where
  | badKind | badLength | badField | badIndex | poolFull | bankBusy | bankFaulted | slotLocked | stillActive
deriving DecidableEq, Repr

/-- The Management Unit: settings, device mode, sticky flags, refusal record (kind code and reason) and count
(R177, R118, R179). -/
structure Management where
  settings : Settings
  mode : DeviceMode
  flags : Flags
  refusal : Option (Nat × Reason)
  refusals : Nat
deriving DecidableEq, Repr

/-! ## Pins and the whole -/

/-- Levels that stand on pins outside any block: the straps (chapter 00, R165), and whether a panel holds the clock
line of each bus low (R151). The raw contact levels are with the contacts (R112). -/
structure Pins where
  nodeStraps : Fin 128
  rateStraps : Fin 4
  clockLow : PerBus Bool
deriving DecidableEq, Repr

/-- What the display side holds: zone sequencing and views, dirty lines, and the panel-bus records. -/
structure Display where
  seq : Sequencer
  lines : LineCoder
  panels : Vec PanelBusRecord 16
deriving DecidableEq, Repr

/-- The machine: the state of the eleven blocks and of the pins, the counter that indexes the free bytes of reports
(the model's own, log entry 1), and the queue of waiting commands (the model's own). -/
structure State where
  clock : StationClock
  boards : Vec (List Entry) 8
  tables : TableStore
  slots : Vec Slot 8
  contacts : Vec Contact 4
  disp : Display
  buses : PerBus PanelBus
  light : LightUnit
  trunk : TrunkPort
  mgmt : Management
  pins : Pins
  freeCount : Nat
  pending : List Instr
deriving DecidableEq, Repr

/-- Why a machine can stop with a fault. The manual gives the coder no such stop: every command has an effect in every
state, so nothing raises one, and the type has no member (safe: no run ends in a fault). -/
inductive Fault where
deriving DecidableEq, Repr

/-- Why a command can be refused by the model. -/
inductive Refusal where
  /-- Raised by an arm of `exec` whose command has no meaning yet, and by nothing else; safe, since such a run stops. -/
  | notModelled (mnemonic : String)
deriving DecidableEq, Repr

/-! ## Reset values -/

/-- The default settings of contact n (R177). -/
def ContactSettings.default (n : Fin 4) : ContactSettings :=
  ⟨false, .level, .activeLow, 50, BitVec.allOnes 16, 1006 + n.val⟩

/-- The settings after an external reset (R177). -/
def Settings.default : Settings :=
  ⟨60, 300, 300, 20, 120, 6, 60, 30, ⟨500000, 500000⟩, ⟨true, true⟩, 40, 200, Vec.tabulate ContactSettings.default⟩

/-- Every sticky flag clear (R179). -/
def Flags.clear : Flags := ⟨Vec.fill 8 false, false, false, false, false, false, false⟩

/-- The Station Clock after either reset (R35). -/
def StationClock.reset : StationClock := ⟨0, .unset, 0⟩

/-- The Table Store after an external reset (R66). -/
def TableStore.reset : TableStore := ⟨Bank.empty, Bank.empty, .a, .clean, false, none⟩

/-- A DISABLED contact whose filtered level is its raw level, every timer stopped and the latch clear (R117). -/
def Contact.reset (raw : Level) : Contact := ⟨raw, raw, none, .disabled, none, none⟩

/-- The panel-bus record of an ABSENT panel (R142, R143). -/
def PanelBusRecord.absent : PanelBusRecord := ⟨.absent, 0, none, none, false, none, false⟩

/-- The display side after an external reset: no runtime, no view, no mark, every panel ABSENT (R104, R105, R128,
R143). -/
def Display.reset : Display :=
  ⟨⟨.primary, 0, [], Vec.fill 16 none, Vec.fill 16 none⟩, ⟨Vec.fill 16 [], Vec.fill 16 0⟩,
    Vec.fill 16 PanelBusRecord.absent⟩

/-- A bus after either reset: no frame, timers stopped, marker at 15, HELD while a panel holds its clock line and
otherwise IDLE (R143). -/
def PanelBus.reset (clockLow : Bool) : PanelBus :=
  ⟨if clockLow then .held else .idle, none, none, 15, none, none⟩

/-- The Light Unit after either reset, for a fallback level (R164). -/
def LightUnit.reset (fallbackLevel : Nat) : LightUnit :=
  ⟨Vec.fill 4 ⟨false, 0, 0, .good, 0⟩, Vec.fill 4 ⟨fallbackLevel, .fallback⟩⟩

/-- The Trunk Port after either reset, with the straps as read (R165, R175). -/
def TrunkPort.reset (node : Fin 128) (rateCode : Fin 4) : TrunkPort :=
  ⟨.hunt, .hunt, [], [], [], none, .relay, none, none, 0, false, 0, 0, node, rateCode⟩

/-- The Management Unit after either reset, with the settings that reset leaves (R182). -/
def Management.reset (settings : Settings) : Management := ⟨settings, .run, Flags.clear, none, 0⟩

/-- The machine right after an external reset. The pin levels (straps at 0, contacts HIGH, clock lines released) are
DESIGN CHOICE, log entry 2: the manual leaves them to the cabinet. -/
def State.reset : State where
  clock := StationClock.reset
  boards := Vec.fill 8 []
  tables := TableStore.reset
  slots := Vec.fill 8 Slot.free
  contacts := Vec.fill 4 (Contact.reset .high)
  disp := Display.reset
  buses := ⟨PanelBus.reset false, PanelBus.reset false⟩
  light := LightUnit.reset Settings.default.fallbackLevel
  trunk := TrunkPort.reset 0 0
  mgmt := Management.reset Settings.default
  pins := ⟨0, 0, ⟨false, false⟩⟩
  freeCount := 0
  pending := []

end Sys2Proof.Machine
end

