-- ==== Sys2Proof/Machine/Ops.lean ====
section
/-! DEFINITION. The shared operations: tables of numbered records, line sets, bytes and checks, and the reads of State
that several blocks share. -/

namespace Sys2Proof

/-- The record at a number, where one is present. -/
def Table.find {α : Type} : Table α → Nat → Option α
  | [], _ => none
  | (j, a) :: rest, k => if j = k then some a else Table.find rest k

/-- The table with the record at a number written. -/
def Table.insert {α : Type} (k : Nat) (a : α) : Table α → Table α
  | [] => [(k, a)]
  | (j, b) :: rest =>
    if k < j then (k, a) :: (j, b) :: rest
    else if k = j then (k, a) :: rest
    else (j, b) :: Table.insert k a rest

/-- The table with the record at a number absent. -/
def Table.erase {α : Type} (k : Nat) (t : Table α) : Table α := t.filter fun e => decide (e.1 ≠ k)

/-- The table with the record at a number written or made absent. -/
def Table.write {α : Type} (k : Nat) (r : Option α) (t : Table α) : Table α :=
  match r with
  | some a => Table.insert k a t
  | none => Table.erase k t

end Sys2Proof

namespace Sys2Proof.Machine

/-! ## Line sets (R124) -/

/-- A line added to a set of lines kept rising with none twice. -/
def addLine (y : Nat) : List Nat → List Nat
  | [] => [y]
  | z :: rest => if y < z then y :: z :: rest else if y = z then z :: rest else z :: addLine y rest

/-- Several lines added; the set is the same whatever their order (R124). -/
def addLines (ys set : List Nat) : List Nat := ys.foldl (fun acc y => addLine y acc) set

/-! ## Bytes (R184, R185) -/

/-- The byte at a place, 0 beyond the end. -/
def byteAt (l : List Byte) (i : Nat) : Nat := (l.getD i 0).toNat

/-- The two-byte field at a place, most significant byte first. -/
def wordAt (l : List Byte) (i : Nat) : Nat := byteAt l i * 256 + byteAt l (i + 1)

/-- The three-byte field at a place, most significant byte first. -/
def tripleAt (l : List Byte) (i : Nat) : Nat := wordAt l i * 256 + byteAt l (i + 2)

/-- The four-byte field at a place, most significant byte first. -/
def quadAt (l : List Byte) (i : Nat) : Nat := tripleAt l i * 256 + byteAt l (i + 3)

/-- A number as one byte. -/
def bytes1 (n : Nat) : List Byte := [BitVec.ofNat 8 n]

/-- A number as two bytes, most significant first. -/
def bytes2 (n : Nat) : List Byte := [BitVec.ofNat 8 (n / 256), BitVec.ofNat 8 n]

/-- A number as three bytes, most significant first. -/
def bytes3 (n : Nat) : List Byte := BitVec.ofNat 8 (n / 65536) :: bytes2 n

/-- A number as four bytes, most significant first. -/
def bytes4 (n : Nat) : List Byte := BitVec.ofNat 8 (n / 16777216) :: bytes3 n

/-- Consecutive two-byte fields; an odd byte at the end is dropped. -/
def wordsOf : List Byte → List Nat
  | hi :: lo :: rest => (hi.toNat * 256 + lo.toNat) :: wordsOf rest
  | _ => []

/-- The sum of characters, mod 256. -/
def sumBytes (l : List Byte) : Byte := l.foldl (· + ·) 0

/-- The check of a cell or frame: what brings the sum to 0 mod 256 (R185, R189). -/
def checkOf (l : List Byte) : Byte := 0 - sumBytes l

/-- Characters with their check behind them. -/
def withCheck (l : List Byte) : List Byte := l ++ [checkOf l]

/-- A choice of two as its code (R184). -/
def boolCode (b : Bool) : Nat := if b then 1 else 0

/-- A count that rises by one up to a limit and stays there. -/
def saturate (limit n : Nat) : Nat := if n < limit then n + 1 else limit

/-- ⌈a ÷ b⌉. -/
def ceilDiv (a b : Nat) : Nat := (a + b - 1) / b

/-! ## Reads of State -/

/-- A bank of the Table Store (R46). -/
def TableStore.bank (t : TableStore) : BankId → Bank
  | .a => t.bankA
  | .b => t.bankB

/-- The other bank. -/
def BankId.other : BankId → BankId
  | .a => .b
  | .b => .a

/-- The bank every consumer reads (R46). -/
def TableStore.activeBank (t : TableStore) : Bank := t.bank t.active

/-- The bank the server builds in (R46). -/
def TableStore.standbyBank (t : TableStore) : Bank := t.bank t.active.other

/-- The Table Store with the standby bank's contents replaced. -/
def TableStore.setStandbyBank (t : TableStore) (bank : Bank) : TableStore :=
  match t.active with
  | .a => { t with bankB := bank }
  | .b => { t with bankA := bank }

/-- What the display side reads of the other blocks (R129): the active bank, the boards, the slots, the clock, the
device mode and SILENT. -/
structure Scene where
  bank : Bank
  boards : Vec (List Entry) 8
  slots : Vec Slot 8
  clock : StationClock
  mode : DeviceMode
  silent : Bool
deriving DecidableEq, Repr

/-- The scene of a state. -/
def State.scene (s : State) : Scene :=
  ⟨s.tables.activeBank, s.boards, s.slots, s.clock, s.mgmt.mode, s.trunk.silent⟩

/-- The settings. -/
def State.settings (s : State) : Settings := s.mgmt.settings

/-- A panel's record, where the panel is present (R68). -/
def Scene.panel (sc : Scene) (p : Fin 16) : Option PanelRow := sc.bank.panels.find p.val

/-- The panel that owns a zone record (R59). -/
def panelOfZone (z : Nat) : Fin 16 := Fin.ofNat 16 (z / 12)

/-- The present zones of present panels, with their panel and its record, in ascending zone number (R75). -/
def Scene.zones (sc : Scene) : List (Nat × Fin 16 × PanelRow × Zone) :=
  sc.bank.zones.filterMap fun e =>
    match sc.panel (panelOfZone e.1) with
    | some row => some (e.1, panelOfZone e.1, row, e.2)
    | none => none

/-- A zone of a present panel, by its number. -/
def Scene.zone (sc : Scene) (z : Nat) : Option (Fin 16 × PanelRow × Zone) :=
  match sc.bank.zones.find z, sc.panel (panelOfZone z) with
  | some zone, some row => some (panelOfZone z, row, zone)
  | _, _ => none

/-- A display change applied to a state against its own scene. -/
def State.onDisplay (s : State) (f : Scene → Display → Display) : State := { s with disp := f s.scene s.disp }

end Sys2Proof.Machine
end

