-- ==== Sys2Proof/Decode.lean ====
section
/-! DEFINITION. Commands as words and as cells. No row of spec/opcode_table.json gives bits to a command, so no word
spells one. What the manual does give is the layout of the cells that carry the server's commands (R185 to R187): the
cell of a command is written here, and Machine/Trunk.lean reads cells. -/

namespace Sys2Proof

open Machine

/-- The command a word spells by the table's bits: none, since no row of the table gives any. -/
def decodeTableWord (_nbits _w : Nat) : Option Instr := none

/-- The body of an ENTRY cell (R185). -/
def EntryBody.bytes (b : EntryBody) : List Byte :=
  bytes1 b.board ++ bytes2 b.sid ++ [b.presence] ++ bytes2 b.dest ++ bytes2 b.via ++ bytes1 b.platform ++
    bytes3 b.sched ++ bytes3 b.expected ++ bytes1 b.status ++ bytes1 b.cars

/-- The body of a MESSAGE cell (R185). -/
def MessageBody.bytes (b : MessageBody) : List Byte :=
  bytes1 b.slot ++ bytes1 b.priority ++ bytes2 b.mask.toNat ++ bytes2 b.duration ++ bytes1 b.font ++ bytes1 b.count ++
    b.tail

/-- The setting number of a bus's setting (R186). -/
def busSettingNumber (first : Nat) : Bus → Nat
  | .busA => first
  | .busB => first + 1

/-- The number of contact n's setting k (R186). -/
def contactSettingNumber (n : Fin 4) (k : Nat) : Nat := 16 + 6 * n.val + k

/-- The body of a SET cell (R185). -/
def setBody (number value : Nat) : List Byte := bytes1 number ++ bytes4 value

/-- The kind code and body of the cell that carries a command (R169, R185 to R187), or `none` for a command that is an
event of the coder itself and travels in no cell. -/
def cellBody? : Instr → Option (Nat × List Byte)
  | .entry b => some (0x10, b.bytes)
  | .withdraw board sid => some (0x11, bytes1 board ++ bytes2 sid)
  | .clearBoard board => some (0x12, bytes1 board)
  | .time second => some (0x18, bytes3 second)
  | .message b => some (0x20, b.bytes)
  | .messageEnd slot => some (0x21, bytes1 slot)
  | .tableLoad table index record => some (0x40, bytes1 table ++ bytes2 index ++ record)
  | .bankCopy => some (0x41, [])
  | .bankClear => some (0x42, [])
  | .bankSwap => some (0x43, [])
  | .setDepartureHold v => some (0x48, setBody 0 v)
  | .setCancelHold v => some (0x48, setBody 1 v)
  | .setStalePeriod v => some (0x48, setBody 2 v)
  | .setCountdownLimit v => some (0x48, setBody 3 v)
  | .setDelayThreshold v => some (0x48, setBody 4 v)
  | .setLanguageDwell v => some (0x48, setBody 5 v)
  | .setSilenceLimit v => some (0x48, setBody 6 v)
  | .setRefreshCycle v => some (0x48, setBody 7 v)
  | .setBusRate b v => some (0x48, setBody (busSettingNumber 8 b) v)
  | .setBusEnable b v => some (0x48, setBody (busSettingNumber 10 b) v)
  | .setHoldLimit v => some (0x48, setBody 12 v)
  | .setSensorFallbackLevel v => some (0x48, setBody 13 v)
  | .setContactEnable n v => some (0x48, setBody (contactSettingNumber n 0) v)
  | .setContactMode n v => some (0x48, setBody (contactSettingNumber n 1) v)
  | .setContactPolarity n v => some (0x48, setBody (contactSettingNumber n 2) v)
  | .setContactFilter n v => some (0x48, setBody (contactSettingNumber n 3) v)
  | .setContactPanelMask n v => some (0x48, setBody (contactSettingNumber n 4) v)
  | .setContactAlertString n v => some (0x48, setBody (contactSettingNumber n 5) v)
  | .setUnknownSetting number v => some (0x48, setBody number v)
  | .mode value => some (0x49, bytes1 value)
  | .ackAlert contact => some (0x4A, bytes1 contact)
  | .queryDevice item => some (0x50, bytes1 0 ++ bytes1 item)
  | .queryBoard item => some (0x50, bytes1 1 ++ bytes1 item)
  | .queryPanel item => some (0x50, bytes1 2 ++ bytes1 item)
  | .queryBank item => some (0x50, bytes1 3 ++ bytes1 item)
  | .queryInputs item => some (0x50, bytes1 4 ++ bytes1 item)
  | .querySettings item => some (0x50, bytes1 5 ++ bytes1 item)
  | .queryUnknownKind kind item => some (0x50, bytes1 kind ++ bytes1 item)
  | .restart _ => some (0x5F, [])
  | _ => none

/-- A cell: kind, destination, length, body, check (R165, R185). -/
def cellOf (kind destination : Nat) (body : List Byte) : List Byte :=
  withCheck (bytes1 kind ++ bytes1 destination ++ bytes1 body.length ++ body)

/-- The cell that carries a command to a destination. -/
def encodeCell? (destination : Nat) (i : Instr) : Option (List Byte) :=
  (cellBody? i).map fun kb => cellOf kb.1 destination kb.2

end Sys2Proof
end

