-- ==== Sys2Proof/Machine/Flags.lean ====
section
/-! DEFINITION. Sticky flags, refusals and counts of the Management Unit (R179), and the codes reports carry them in. -/

namespace Sys2Proof.Machine

/-- The sticky flags changed. -/
def State.onFlags (s : State) (f : Flags → Flags) : State :=
  { s with mgmt := { s.mgmt with flags := f s.mgmt.flags } }

/-- BOARD_OVERFLOW of one board raised (R9, R10). -/
def Flags.raiseOverflow (b : Fin 8) (f : Flags) : Flags := { f with overflow := f.overflow.set b true }

/-- FWD_DROP raised (R170). -/
def Flags.raiseFwdDrop (f : Flags) : Flags := { f with fwdDrop := true }

/-- RELAY_DROP raised (R171). -/
def Flags.raiseRelayDrop (f : Flags) : Flags := { f with relayDrop := true }

/-- REPLY_DROP raised (R171). -/
def Flags.raiseReplyDrop (f : Flags) : Flags := { f with replyDrop := true }

/-- NEW_DAY raised (R16). -/
def Flags.raiseNewDay (f : Flags) : Flags := { f with newDay := true }

/-- PULSE_DISCORD raised (R30). -/
def Flags.raisePulseDiscord (f : Flags) : Flags := { f with pulseDiscord := true }

/-- SETTING_CLAMPED raised (R178). -/
def Flags.raiseSettingClamped (f : Flags) : Flags := { f with settingClamped := true }

/-- A refusal recorded and counted, up to 255 (R179). -/
def State.refuse (s : State) (kind : Nat) (reason : Reason) : State :=
  { s with mgmt := { s.mgmt with refusal := some (kind, reason), refusals := saturate 255 s.mgmt.refusals } }

/-- The code of a refusal reason (R188). -/
def Reason.code : Reason → Nat
  | .badKind => 1
  | .badLength => 2
  | .badField => 3
  | .badIndex => 4
  | .poolFull => 5
  | .bankBusy => 6
  | .bankFaulted => 7
  | .slotLocked => 8
  | .stillActive => 9

/-- Bits 0 to 5 of the flags field (R188). -/
def Flags.code (f : Flags) : Nat :=
  boolCode f.fwdDrop + 2 * boolCode f.relayDrop + 4 * boolCode f.replyDrop + 8 * boolCode f.newDay +
    16 * boolCode f.pulseDiscord + 32 * boolCode f.settingClamped

/-- The overflow marks, bit b for board b (R188). -/
def Flags.overflowCode (f : Flags) : Nat :=
  f.overflow.toList.foldr (fun mark acc => 2 * acc + boolCode mark) 0

end Sys2Proof.Machine
end

