-- ==== Sys2Proof/Machine/Operands.lean ====
section
/-! DEFINITION. Reading the operands of commands: choice codes, cell bodies (R185), table records with their load checks
(R49 to R59, R187), and setting values brought into range (R178). -/

namespace Sys2Proof.Machine

/-! ## Choice codes: a code not listed names no value (R184) -/

/-- Entry status codes (R185). -/
def statusOf? : Nat → Option Status
  | 0 => some .normal
  | 1 => some .cancelled
  | 2 => some .held
  | 3 => some .arriving
  | _ => none

/-- Priority codes (R185). -/
def priorityOf? : Nat → Option Priority
  | 0 => some .normal
  | 1 => some .service
  | 2 => some .emergency
  | _ => none

/-- Device mode codes (R185). -/
def modeOf? : Nat → Option DeviceMode
  | 0 => some .run
  | 1 => some .night
  | 2 => some .test
  | _ => none

/-- Colour role codes (R187). -/
def roleOf? : Nat → Option ColourRole
  | 0 => some .text
  | 1 => some .destination
  | 2 => some .time
  | 3 => some .delayed
  | 4 => some .cancelled
  | 5 => some .stale
  | 6 => some .message
  | 7 => some .emergency
  | _ => none

/-- Fill codes: a role, or 8 for TRANSPARENT (R187). -/
def fillOf? (n : Nat) : Option (Option ColourRole) :=
  if n = 8 then some none else (roleOf? n).map some

/-- Field kind codes (R187). -/
def fieldKindOf? : Nat → Option FieldKind
  | 0 => some .destination
  | 1 => some .via
  | 2 => some .platform
  | 3 => some .scheduled
  | 4 => some .time
  | 5 => some .cars
  | _ => none

/-- Alignment codes (R187). -/
def alignOf? : Nat → Option Align
  | 0 => some .left
  | 1 => some .right
  | 2 => some .centre
  | _ => none

/-- Bus codes (R187). -/
def busOf? : Nat → Option Bus
  | 0 => some .busA
  | 1 => some .busB
  | _ => none

/-- Dim group codes: a sensor, or FIXED with the record's level (R187). -/
def dimGroupOf? (n level : Nat) : Option DimGroup :=
  if n = 4 then some (.fixed level) else (finOf? 4 n).map .sensor

/-- Override policy codes (R187). -/
def policyOf? : Nat → Option Policy
  | 0 => some .full
  | 1 => some .zones
  | _ => none

/-- Language mode codes (R187). -/
def languageOf? : Nat → Option Language
  | 0 => some .primary
  | 1 => some .alternate
  | _ => none

/-- A marker byte of a record: 0 clear, 1 set, and no other code (DEDUCED from R184 and R187, log entry 6). -/
def flagOf? : Nat → Option Bool
  | 0 => some false
  | 1 => some true
  | _ => none

/-- A value kept where a condition holds. -/
def keepIf {α : Type} (ok : Bool) (a : α) : Option α := if ok then some a else none

/-- A number kept where it lies in a range that includes both ends. -/
def ranged (lo hi n : Nat) : Option Nat := keepIf (decide (lo ≤ n) && decide (n ≤ hi)) n

/-- An optional field: not read where absent, in range where present. -/
def optionalRanged (present : Bool) (lo hi n : Nat) : Option (Option Nat) :=
  if present then (ranged lo hi n).map some else some none

/-! ## Cell bodies (R185) -/

/-- The fields of a 17-byte ENTRY body. -/
def entryOfBody (b : List Byte) : EntryBody where
  board := byteAt b 0
  sid := wordAt b 1
  presence := b.getD 3 0
  dest := wordAt b 4
  via := wordAt b 6
  platform := byteAt b 8
  sched := tripleAt b 9
  expected := tripleAt b 12
  status := byteAt b 15
  cars := byteAt b 16

/-- The fields of a MESSAGE body of at least 8 bytes. -/
def messageOfBody (b : List Byte) : MessageBody where
  slot := byteAt b 0
  priority := byteAt b 1
  mask := BitVec.ofNat 16 (wordAt b 2)
  duration := wordAt b 4
  font := byteAt b 6
  count := byteAt b 7
  tail := b.drop 8

/-- The greatest service second (R2, R26). -/
def lastSecond : Nat := 107999

/-- The fields an ENTRY posts, where it passes the field checks of R6; age, field and role are set by the posting. -/
def postedEntry? (b : EntryBody) : Option Entry := do
  let sid ← ranged 1 65535 b.sid
  let dest ← ranged 0 1023 b.dest
  let via ← optionalRanged (b.presence.getLsbD 0) 0 1023 b.via
  let platform ← optionalRanged (b.presence.getLsbD 1) 1 32 b.platform
  let sched ← ranged 0 lastSecond b.sched
  let expected ← optionalRanged (b.presence.getLsbD 2) 0 lastSecond b.expected
  let status ← statusOf? b.status
  let cars ← optionalRanged (b.presence.getLsbD 3) 1 12 b.cars
  pure ⟨sid, dest, via, platform, sched, expected, status, cars, b.presence.getLsbD 4, 0, .due, .time⟩

/-! ## Table records and their checks (R49 to R59) -/

/-- The outcome of checking a load against the standby bank: the bank with the record written, or the reason. -/
abbrev LoadResult := Except Reason Bank

/-- A font record (R51): 4 bytes. -/
def loadFont (bank : Bank) (i : Nat) (r : List Byte) : LoadResult :=
  if 3 < i then .error .badIndex
  else if r.length ≠ 4 then .error .badLength
  else
    match ranged 5 24 (byteAt r 0), ranged 0 3 (byteAt r 1), ranged 0 501 (wordAt r 2) with
    | some height, some spacing, some base =>
      .ok { bank with fonts := bank.fonts.insert i ⟨height, spacing, base⟩ }
    | _, _, _ => .error .badField

/-- A glyph record (R52): width and font are judged before the row count; width 0 makes the glyph absent. -/
def loadGlyph (bank : Bank) (i : Nat) (r : List Byte) : LoadResult :=
  if 511 < i then .error .badIndex
  else if r.length < 2 then .error .badLength
  else
    let width := byteAt r 1
    if width = 0 then
      if r.length ≠ 2 then .error .badLength else .ok { bank with glyphs := bank.glyphs.erase i }
    else if 16 < width then .error .badField
    else if 3 < byteAt r 0 then .error .badField
    else
      match bank.fonts.find (byteAt r 0) with
      | none => .error .badField
      | some font =>
        if r.length ≠ 2 + font.height * ceilDiv width 8 then .error .badLength
        else .ok { bank with glyphs := bank.glyphs.insert i ⟨width, font.height, r.drop 2⟩ }

/-- The pool share of a string (R48, R53). -/
def Str.codes (st : Str) : Nat := st.primary.length + (st.secondary.getD []).length

/-- A string record (R53), its pool check last. -/
def loadString (bank : Bank) (i : Nat) (r : List Byte) : LoadResult :=
  if 1023 < i then .error .badIndex
  else
    let p := byteAt r 0
    let s := byteAt r (1 + 2 * p)
    let secondaryLength := if s = 255 then 0 else 2 * s
    if r.length < 2 + 2 * p then .error .badLength
    else if r.length ≠ 2 + 2 * p + secondaryLength then .error .badLength
    else
      let primary := wordsOf ((r.drop 1).take (2 * p))
      let secondary := if s = 255 then none else some (wordsOf (r.drop (2 + 2 * p)))
      let st : Str := ⟨primary, secondary⟩
      if 48 < primary.length || 48 < (secondary.getD []).length ||
          (primary ++ secondary.getD []).any (fun c => decide (511 < c)) then .error .badField
      else
        let pool := bank.pool - ((bank.strings.find i).map Str.codes).getD 0 + st.codes
        if 16384 < pool then .error .poolFull
        else .ok { bank with strings := bank.strings.insert i st, pool := pool }

/-- A palette record (R54): 48 component bytes and 8 role indices. -/
def loadPalette (bank : Bank) (i : Nat) (r : List Byte) : LoadResult :=
  if 3 < i then .error .badIndex
  else if r.length ≠ 56 then .error .badLength
  else
    match (r.drop 48).mapM (fun b => finOf? 16 b.toNat) with
    | some roles => .ok { bank with palettes := bank.palettes.insert i ⟨r.take 48, roles⟩ }
    | none => .error .badField

/-- A tile record (R55): the segment leads 128 bytes; the other segment stays. -/
def loadTile (bank : Bank) (i : Nat) (r : List Byte) : LoadResult :=
  if 47 < i then .error .badIndex
  else
    match r with
    | [] => .error .badLength
    | segment :: lines =>
      if 1 < segment.toNat then .error .badIndex
      else if lines.length ≠ 128 then .error .badLength
      else
        let old := (bank.tiles.find i).getD ⟨none, none⟩
        let new : Tile := if segment.toNat = 0 then { old with upper := some lines } else { old with lower := some lines }
        .ok { bank with tiles := bank.tiles.insert i new }

/-- Consecutive pairs of bytes as light and level. -/
def pointsOf : List Byte → List (Nat × Nat)
  | light :: level :: rest => (light.toNat, level.toNat) :: pointsOf rest
  | _ => []

/-- Lights strictly ascending and levels nowhere falling, from each point to the next (R56). -/
def risingCurve : List (Nat × Nat) → Bool
  | p :: q :: rest => decide (p.1 < q.1) && decide (p.2 ≤ q.2) && risingCurve (q :: rest)
  | _ => true

/-- The dimming curve record (R56). -/
def loadCurve (bank : Bank) (i : Nat) (r : List Byte) : LoadResult :=
  if i ≠ 0 then .error .badIndex
  else
    match r with
    | [] => .error .badLength
    | count :: rest =>
      if rest.length ≠ 2 * count.toNat then .error .badLength
      else if (ranged 2 8 count.toNat).isNone || !risingCurve (pointsOf rest) then .error .badField
      else .ok { bank with curve := some (pointsOf rest) }

/-- One 7-byte column (R57). -/
def column? (r : List Byte) : Option Column := do
  let field ← fieldKindOf? (byteAt r 0)
  let xOffset ← ranged 0 383 (wordAt r 1)
  let width ← ranged 1 384 (wordAt r 3)
  let _ ← keepIf (decide (xOffset + width ≤ 384)) ()
  let align ← alignOf? (byteAt r 5)
  let role ← roleOf? (byteAt r 6)
  pure ⟨field, xOffset, width, align, role⟩

/-- So many consecutive columns, where each is valid. -/
def columns? : Nat → List Byte → Option (List Column)
  | 0, _ => some []
  | n + 1, r => do
    let c ← column? r
    let rest ← columns? n (r.drop 7)
    pure (c :: rest)

/-- A row format record (R57). -/
def loadFormat (bank : Bank) (i : Nat) (r : List Byte) : LoadResult :=
  if 7 < i then .error .badIndex
  else
    match r with
    | [] => .error .badLength
    | count :: rest =>
      if rest.length ≠ 7 * count.toNat then .error .badLength
      else if (ranged 1 6 count.toNat).isNone then .error .badField
      else
        match columns? count.toNat rest with
        | some columns => .ok { bank with formats := bank.formats.insert i columns }
        | none => .error .badField

/-- A present panel record (R58), but for the duplicate check. -/
def panelRow? (r : List Byte) : Option PanelRow := do
  let bus ← busOf? (byteAt r 1)
  let address ← ranged 1 30 (byteAt r 2)
  let width ← ranged 32 384 (wordAt r 3)
  let _ ← keepIf (decide (width % 8 = 0)) ()
  let height ← ranged 8 96 (byteAt r 5)
  let palette ← ranged 0 3 (byteAt r 6)
  let background ← finOf? 16 (byteAt r 7)
  let busClass ← ranged 0 3 (byteAt r 8)
  let dim ← dimGroupOf? (byteAt r 9) (byteAt r 10)
  let policy ← policyOf? (byteAt r 11)
  let emergencyFont ← ranged 0 3 (byteAt r 12)
  let emergencyInterval ← ranged 20 500 (wordAt r 13)
  let hasFallback ← flagOf? (byteAt r 15)
  let fallback ← optionalRanged hasFallback 0 1023 (wordAt r 16)
  pure ⟨bus, address, width, height, palette, background, busClass, dim, policy, emergencyFont, emergencyInterval,
    fallback⟩

/-- Whether another present panel, at a different number, has the same bus and bus address (R58). -/
def duplicateAddress (panels : Table PanelRow) (i : Nat) (row : PanelRow) : Bool :=
  panels.any fun e => decide (e.1 ≠ i ∧ e.2.bus = row.bus ∧ e.2.address = row.address)

/-- A panel record (R58): the present flag clear makes the panel absent. -/
def loadPanel (bank : Bank) (i : Nat) (r : List Byte) : LoadResult :=
  if 15 < i then .error .badIndex
  else if r.length ≠ 18 then .error .badLength
  else
    match flagOf? (byteAt r 0) with
    | none => .error .badField
    | some false => .ok { bank with panels := bank.panels.erase i }
    | some true =>
      match panelRow? r with
      | none => .error .badField
      | some row =>
        if duplicateAddress bank.panels i row then .error .badField
        else .ok { bank with panels := bank.panels.insert i row }

/-- The kind-specific fields of a zone, from its seven kind bytes (R59, R187). -/
def zoneKind? (kind : Nat) (k : List Byte) : Option ZoneKind :=
  match kind with
  | 1 => do
    let board ← finOf? 8 (byteAt k 0)
    let format ← ranged 0 7 (byteAt k 1)
    let first ← ranged 0 15 (byteAt k 2)
    let rows ← ranged 1 8 (byteAt k 3)
    let gap ← ranged 0 8 (byteAt k 4)
    let pages ← ranged 1 8 (byteAt k 5)
    let dwell ← ranged 2 60 (byteAt k 6)
    pure (.rows board format first rows gap pages dwell)
  | 2 => do
    let floor ← priorityOf? (byteAt k 0)
    let interval ← ranged 20 500 (wordAt k 1)
    let dwell ← ranged 2 60 (byteAt k 3)
    let hasIdle ← flagOf? (byteAt k 4)
    let idle ← optionalRanged hasIdle 0 1023 (wordAt k 5)
    pure (.message floor interval dwell idle)
  | 3 => do
    let seconds ← flagOf? (byteAt k 0)
    let align ← alignOf? (byteAt k 1)
    pure (.clock seconds align)
  | 4 => do
    let first ← ranged 0 47 (byteAt k 0)
    let last ← ranged first 47 (byteAt k 1)
    let dwell ← ranged 2 60 (byteAt k 2)
    pure (.tile first last dwell)
  | 5 => do
    let string ← ranged 0 1023 (wordAt k 0)
    let align ← alignOf? (byteAt k 2)
    let role ← roleOf? (byteAt k 3)
    pure (.text string align role)
  | _ => none

/-- A zone record of a kind other than NONE (R59). -/
def zone? (r : List Byte) : Option Zone := do
  let x ← ranged 0 383 (wordAt r 1)
  let y ← ranged 0 95 (byteAt r 3)
  let w ← ranged 1 384 (wordAt r 4)
  let h ← ranged 1 96 (byteAt r 6)
  let _ ← keepIf (decide (x + w ≤ 384) && decide (y + h ≤ 96)) ()
  let font ← ranged 0 3 (byteAt r 7)
  let fill ← fillOf? (byteAt r 8)
  let language ← languageOf? (byteAt r 9)
  let kind ← zoneKind? (byteAt r 0) (r.drop 10)
  pure ⟨kind, x, y, w, h, font, fill, language⟩

/-- A zone record (R59): kind NONE makes the zone absent. -/
def loadZone (bank : Bank) (i : Nat) (r : List Byte) : LoadResult :=
  if 191 < i then .error .badIndex
  else if r.length ≠ 17 then .error .badLength
  else if byteAt r 0 = 0 then .ok { bank with zones := bank.zones.erase i }
  else
    match zone? r with
    | some zone => .ok { bank with zones := bank.zones.insert i zone }
    | none => .error .badField

/-- Rows 3 to 6 of R49: the record checked against the standby bank and, where it passes, written (R50, R187). -/
def loadRecord (bank : Bank) (table index : Nat) (record : List Byte) : LoadResult :=
  match table with
  | 0 => loadFont bank index record
  | 1 => loadGlyph bank index record
  | 2 => loadString bank index record
  | 3 => loadPalette bank index record
  | 4 => loadTile bank index record
  | 5 => loadCurve bank index record
  | 6 => loadFormat bank index record
  | 7 => loadPanel bank index record
  | 8 => loadZone bank index record
  | _ => .error .badIndex

/-! ## Setting values brought into range (R178) -/

/-- A plain range. -/
def clampRange (lo hi v : Nat) : Nat := if v < lo then lo else if hi < v then hi else v

/-- A range with 0 for off: 0 is kept, any other value is brought into the working span. -/
def clampOff (lo hi v : Nat) : Nat := if v = 0 then 0 else clampRange lo hi v

/-- A contact filter: rounded down to a multiple of 10, then brought into 10 to 2,550. -/
def clampFilter (v : Nat) : Nat := clampRange 10 2550 (v / 10 * 10)

/-- A bus rate: the greatest of the three rates not above the value, or 250,000. -/
def clampRate (v : Nat) : Nat := if 1000000 ≤ v then 1000000 else if 500000 ≤ v then 500000 else 250000

/-- A choice of two: a value above 1 takes 1. -/
def clampChoice (v : Nat) : Nat := if v = 0 then 0 else 1

/-- A panel mask: the low 16 bits of the value. -/
def maskOf (v : Nat) : BitVec 16 := BitVec.ofNat 16 v

end Sys2Proof.Machine
end

