-- ==== Sys2Proof/Machine/Text.lean ====
section
/-! DEFINITION. Texts: strings and their variants (R77), digits and time fields (R41, R42), widths (R132), where a text
is placed (R78, R133), and the codes of every field kind (R84). -/

namespace Sys2Proof.Machine

/-- A font of the active bank; an absent font has height 0 and spacing 0 (R65). -/
def Bank.font (bank : Bank) (f : Nat) : Font := (bank.fonts.find f).getD ⟨0, 0, 0⟩

/-- The variant a zone draws strings in: the device phase in an ALTERNATE zone, else PRIMARY (R77). `true` is the
secondary variant. -/
def drawsSecondary (language : Language) (phase : Phase) : Bool :=
  decide (language = .alternate) && decide (phase = .secondary)

/-- The glyph codes of a string in a variant; an absent string is empty text, and an absent secondary variant is the
primary one (R65, R77). -/
def Bank.stringText (bank : Bank) (secondary : Bool) (n : Nat) : List Nat :=
  match bank.strings.find n with
  | none => []
  | some st => if secondary then st.secondary.getD st.primary else st.primary

/-- The decimal digits of a number below 100, no leading zero. -/
def decimalDigits (n : Nat) : List Nat := if n < 10 then [n] else [n / 10 % 10, n % 10]

/-- Two digits, with a leading zero where needed. -/
def twoDigits (n : Nat) : List Nat := [n / 10 % 10, n % 10]

/-- Digits as glyph codes at a digit base (R41). -/
def digitCodes (base : Nat) (digits : List Nat) : List Nat := digits.map (base + ·)

/-- The hour digits of a service second (R41). -/
def hourDigits (x : Nat) : List Nat := twoDigits (x / 3600 % 24)

/-- The minute digits of a service second (R41). -/
def minuteDigits (x : Nat) : List Nat := twoDigits (x % 3600 / 60)

/-- hh:mm of a service second, five glyph codes (R41). -/
def clockCodes (base x : Nat) : List Nat :=
  digitCodes base (hourDigits x) ++ [base + 10] ++ digitCodes base (minuteDigits x)

/-- The glyph codes of a shown time field (R41, R42). -/
def timeFieldCodes (bank : Bank) (secondary : Bool) (base : Nat) : TimeField → List Nat
  | .due => bank.stringText secondary 1000
  | .minutes m => digitCodes base (decimalDigits m) ++ bank.stringText secondary 1001
  | .clock x | .staleClock x => clockCodes base x
  | .cancelled => bank.stringText secondary 1002
  | .held => bank.stringText secondary 1003
  | .arriving => bank.stringText secondary 1004

/-- The glyph codes a column draws of an entry; an absent field is empty text (R84). -/
def fieldCodes (bank : Bank) (secondary : Bool) (base : Nat) (e : Entry) : FieldKind → List Nat
  | .destination => bank.stringText secondary e.dest
  | .via => (e.via.map (bank.stringText secondary)).getD []
  | .platform => (e.platform.map fun n => digitCodes base (decimalDigits n)).getD []
  | .scheduled => clockCodes base e.sched
  | .time => timeFieldCodes bank secondary base e.field
  | .cars => (e.cars.map fun n => digitCodes base (decimalDigits n)).getD []

/-- The text a CLOCK zone shows for the clock: UNSET, or its digits (R79, R103). -/
def clockText (clock : StationClock) (seconds : Bool) : ClockText :=
  match clock.state with
  | .unset => .unset
  | .synced | .drifting | .held =>
    .digits (hourDigits clock.value ++ minuteDigits clock.value ++
      if seconds then twoDigits (clock.value % 60) else [])

/-- Pairs of digits with a colon between each two (R79). -/
def colonCodes (base : Nat) : List Nat → List Nat
  | a :: b :: c :: rest => [base + a, base + b, base + 10] ++ colonCodes base (c :: rest)
  | l => digitCodes base l

/-- The glyph codes a CLOCK zone draws: its recorded digits with colons, or string 1005 (R79, R130). -/
def clockTextCodes (bank : Bank) (secondary : Bool) (base : Nat) : ClockText → List Nat
  | .unset => bank.stringText secondary 1005
  | .digits l => colonCodes base l

/-- The glyph codes of a message text (R106). -/
def messageCodes (bank : Bank) (secondary : Bool) : MessageText → List Nat
  | .codes l => l
  | .string n => bank.stringText secondary n

/-- The present glyphs of a text. -/
def Bank.presentGlyphs (bank : Bank) (codes : List Nat) : List Glyph := codes.filterMap bank.glyphs.find

/-- The width of a text: its glyphs and one spacing between each two; absent glyphs add nothing (R132). -/
def Bank.textWidth (bank : Bank) (font : Font) (codes : List Nat) : Nat :=
  let glyphs := bank.presentGlyphs codes
  (glyphs.map fun g => g.width + font.spacing).sum - if glyphs.isEmpty then 0 else font.spacing

/-- The start pixel of a text in a box: by alignment, and the box's left edge where the text is wider (R78, R133). So for a
held message text that a language flip has made wider than its zone: nothing of it is drawn beyond either edge of the zone
(R96; DEDUCED, log entry 26). -/
def alignedStart (align : Align) (boxX boxWidth textWidth : Nat) : Nat :=
  if boxWidth < textWidth then boxX
  else
    match align with
    | .left => boxX
    | .right => boxX + boxWidth - textWidth
    | .centre => boxX + (boxWidth - textWidth) / 2

/-- The top line of a single-line text in a zone, or at the zone's y where the font is taller (R78). -/
def Zone.textTop (z : Zone) (fontHeight : Nat) : Nat := z.y + (z.h - fontHeight) / 2

/-- The top line of a full-panel text, or 0 where the font is taller than the panel (R101, R122). -/
def fullPanelTop (height fontHeight : Nat) : Nat := (height - fontHeight) / 2

/-! ## The lines of zones (R75, R78, R82) -/

/-- The lines of a span that fall in a zone's clipped rectangle and on the panel; none where the zone starts at or
beyond the panel's width (R69, R75). -/
def Zone.clippedLines (z : Zone) (row : PanelRow) (from_ count : Nat) : List Nat :=
  if row.width ≤ z.x then []
  else (List.range row.height).filter fun y =>
    decide (z.y ≤ y ∧ y < z.y + z.h ∧ from_ ≤ y ∧ y < from_ + count)

/-- Every line of a zone (R75). -/
def Zone.lines (z : Zone) (row : PanelRow) : List Nat := z.clippedLines row z.y z.h

/-- The text lines of a single-line zone for a font height (R78). -/
def Zone.textLines (z : Zone) (row : PanelRow) (fontHeight : Nat) : List Nat :=
  z.clippedLines row (z.textTop fontHeight) fontHeight

/-- The lines of departure row i of a ROWS zone (R82). -/
def Zone.rowLines (z : Zone) (row : PanelRow) (fontHeight gap i : Nat) : List Nat :=
  z.clippedLines row (z.y + i * (fontHeight + gap)) fontHeight

/-- The text lines of the synthetic message zone (R101). -/
def syntheticTextLines (row : PanelRow) (fontHeight : Nat) : List Nat :=
  let top := fullPanelTop row.height fontHeight
  (List.range row.height).filter fun y => decide (top ≤ y ∧ y < top + fontHeight)

end Sys2Proof.Machine
end

