-- ==== Sys2Proof/Machine/Sequencer.lean ====
section
/-! DEFINITION. The Zone Sequencer's shared operations on the display side: marks (R85 to R88, R124), board change
notices (R17, R86, R87, R93), message rotation (R95 to R101), paging and tiles (R92, R102), the clock zones (R103), the
language phase (R104), views (R120, R121), panels becoming STARTING or ABSENT (R126, R143), and restarts (R105). -/

namespace Sys2Proof.Machine

/-! ## Marks -/

/-- Lines of a present panel marked dirty; lines at or beyond its height are not taken (R124). -/
def Display.mark (d : Display) (p : Fin 16) (row : PanelRow) (ys : List Nat) : Display :=
  { d with lines := { d.lines with
      dirty := d.lines.dirty.update p (addLines (ys.filter fun y => decide (y < row.height))) } }

/-- Every line of a panel marked dirty. -/
def Display.markPanel (d : Display) (p : Fin 16) (row : PanelRow) : Display := d.mark p row (List.range row.height)

/-- Lines marked for a change in the content of a zone: only on a panel whose view is NORMAL (R85). -/
def Display.markContent (d : Display) (p : Fin 16) (row : PanelRow) (ys : List Nat) : Display :=
  if d.seq.views.get p = some .normal then d.mark p row ys else d

/-- A zone's runtime record written or discarded. -/
def Display.setRuntime (d : Display) (z : Nat) (rt : Option ZoneRuntime) : Display :=
  { d with seq := { d.seq with runtimes := Table.write z rt d.seq.runtimes } }

/-- A panel's bus record changed. -/
def Display.onPanel (d : Display) (p : Fin 16) (f : PanelBusRecord → PanelBusRecord) : Display :=
  { d with panels := d.panels.update p f }

/-! ## Board change notices -/

/-- A change notice (R17). -/
structure Notice where
  board : Fin 8
  range : Option (Nat × Nat)
  ids : List Nat
deriving DecidableEq, Repr

/-- The position of a service id on a board (R1). -/
def positionOf (sid : Nat) (entries : List Entry) : Option Nat := entries.findIdx? fun e => decide (e.sid = sid)

/-- Whether a notice reaches the live row at a position (R86): at or after the first position of its range, or the
position of a named id that stands on the board. -/
def Notice.reaches (n : Notice) (entries : List Entry) (position : Nat) : Bool :=
  (match n.range with
    | some (first, _) => decide (first ≤ position)
    | none => false) ||
  (match entries[position]? with
    | some e => decide (e.sid ∈ n.ids)
    | none => false)

/-- A row record after a notice: VACANT where its id is named and no longer on the board (R93). -/
def Notice.vacate (n : Notice) (entries : List Entry) (record : Option Nat) : Option Nat :=
  match record with
  | some sid => if sid ∈ n.ids ∧ positionOf sid entries = none then none else some sid
  | none => none

/-- Whether a row record holds a named id (R87, R93). -/
def Notice.names (n : Notice) (record : Option Nat) : Bool :=
  match record with
  | some sid => decide (sid ∈ n.ids)
  | none => false

/-- One zone takes a change notice (R86, R87, R93). -/
def noticeZone (sc : Scene) (n : Notice) (d : Display) (e : Nat × Fin 16 × PanelRow × Zone) : Display :=
  let (z, p, row, zone) := e
  match zone.kind with
  | .rows board _ first rows gap pages _ =>
    if board ≠ n.board then d
    else
      let entries := sc.boards.get board
      let rowLines := zone.rowLines row (sc.bank.font zone.font).height gap
      if pages = 1 then
        d.markContent p row (((List.range rows).filter fun i => n.reaches entries (first + i)).flatMap rowLines)
      else
        match d.seq.runtimes.find z with
        | some (.page index snapshot dwell) =>
          (d.markContent p row (((List.range rows).filter fun i => n.names (snapshot.getD i none)).flatMap rowLines)).setRuntime
            z (some (.page index (snapshot.map (n.vacate entries)) dwell))
        | _ => d
  | _ => d

/-- The Zone Sequencer takes a change notice, zone by zone (R85). -/
def takeNotice (n : Notice) (sc : Scene) (d : Display) : Display := sc.zones.foldl (noticeZone sc n) d

/-! ## Message zones -/

/-- Priorities as they rise (R97). -/
def Priority.rank : Priority → Nat
  | .normal => 0
  | .service => 1
  | .emergency => 2

/-- The record of a slot that is ACTIVE or LOCKED (R106). -/
def Slot.record? : Slot → Option MessageRecord
  | .free => none
  | .active r _ => some r
  | .locked r => some r

/-- The slots eligible for a panel at a least priority, in slot order, with their ranks (R97). -/
def eligibleSlots (slots : Vec Slot 8) (p : Fin 16) (floor : Priority) : List (Fin 8 × Nat) :=
  (List.finRange 8).filterMap fun i =>
    match (slots.get i).record? with
    | some r => if r.mask.getLsbD p.val && decide (floor.rank ≤ r.priority.rank) then some (i, r.priority.rank) else none
    | none => none

/-- The top group: the eligible slots of the highest priority any of them holds (R97). -/
def topGroup (slots : Vec Slot 8) (p : Fin 16) (floor : Priority) : List (Fin 8) :=
  let eligible := eligibleSlots slots p floor
  let top := (eligible.map Prod.snd).foldl max 0
  (eligible.filter fun e => decide (e.2 = top)).map Prod.fst

/-- The successor of a cursor in a group (R97). -/
def successor (cursor : Fin 8) (group : List (Fin 8)) : Option (Fin 8) :=
  match group.find? fun s => decide (cursor < s) with
  | some s => some s
  | none => group.head?

/-- Where a message text is shown: a MESSAGE zone, or the synthetic zone of a panel (R80, R101). `zone` is `none` for
the synthetic zone, which sets every text in the emergency font. -/
structure MessagePlace where
  panel : Fin 16
  row : PanelRow
  zone : Option Zone
  width : Nat
  interval : Nat
  dwell : Nat
  floor : Priority
  idle : Option Nat
  font : Nat
  secondary : Bool
deriving DecidableEq, Repr

/-- The dwell of the synthetic message zone, in seconds (R101). -/
def syntheticDwell : Nat := 5

/-- The place of a MESSAGE zone record. -/
def zonePlace? (phase : Phase) (p : Fin 16) (row : PanelRow) (zone : Zone) : Option MessagePlace :=
  match zone.kind with
  | .message floor interval dwell idle =>
    some ⟨p, row, some zone, zone.w, interval, dwell, floor, idle, zone.font, drawsSecondary zone.language phase⟩
  | _ => none

/-- The place of the synthetic message zone of a panel (R101); its alert strings take the device phase (R114). -/
def syntheticPlace (phase : Phase) (p : Fin 16) (row : PanelRow) : MessagePlace :=
  ⟨p, row, none, row.width, row.emergencyInterval, syntheticDwell, .emergency, none, row.emergencyFont,
    decide (phase = .secondary)⟩

/-- The place a reference names, where there is one. -/
def messagePlace? (sc : Scene) (phase : Phase) : MsgZone → Option MessagePlace
  | .zone z =>
    match sc.zone z.val with
    | some (p, row, zone) => zonePlace? phase p row zone
    | none => none
  | .synthetic p => (sc.panel p).map (syntheticPlace phase p)

/-- The number of the font a shown text is set in: the slot's own in a MESSAGE zone, else the place's (R80, R101). -/
def MessagePlace.shownFont (pl : MessagePlace) (sc : Scene) : Showing → Nat
  | .slot n =>
    match pl.zone, (sc.slots.get n).record? with
    | some _, some r => r.font
    | _, _ => pl.font
  | .idle | .empty => pl.font

/-- The glyph codes of a shown text (R80, R97, R114). -/
def MessagePlace.shownCodes (pl : MessagePlace) (sc : Scene) : Showing → List Nat
  | .slot n =>
    match (sc.slots.get n).record? with
    | some r => messageCodes sc.bank pl.secondary r.text
    | none => []
  | .idle => (pl.idle.map (sc.bank.stringText pl.secondary)).getD []
  | .empty => []

/-- The width of a shown text as it stands (R95, R132). -/
def MessagePlace.shownWidth (pl : MessagePlace) (sc : Scene) (showing : Showing) : Nat :=
  sc.bank.textWidth (sc.bank.font (pl.shownFont sc showing)) (pl.shownCodes sc showing)

/-- What a place shows when no slot is in its top group (R97). -/
def MessagePlace.unshown (pl : MessagePlace) : Showing := if pl.idle.isSome then .idle else .empty

/-- The top group of a place. -/
def MessagePlace.group (pl : MessagePlace) (sc : Scene) : List (Fin 8) := topGroup sc.slots pl.panel pl.floor

/-- A shown text begins: a pass where it is wider than the place, else it is held; in EMPTY neither runs (R95, R96,
R98). -/
def MessagePlace.begin (pl : MessagePlace) (sc : Scene) (rt : MessageRuntime) : MessageRuntime :=
  match rt.showing with
  | .empty => { rt with offset := 0, stepTimer := none, dwell := none }
  | .slot _ | .idle =>
    if pl.width < pl.shownWidth sc rt.showing then
      { rt with offset := 0, stepTimer := some pl.interval, dwell := none }
    else { rt with offset := 0, stepTimer := none, dwell := some pl.dwell }

/-- The place begins to show a slot. -/
def MessagePlace.showSlot (pl : MessagePlace) (sc : Scene) (rt : MessageRuntime) (s : Fin 8) : MessageRuntime :=
  pl.begin sc { rt with showing := .slot s, cursor := s }

/-- The place begins to show no slot; the cursor is kept (R97). -/
def MessagePlace.showNone (pl : MessagePlace) (sc : Scene) (rt : MessageRuntime) : MessageRuntime :=
  pl.begin sc { rt with showing := pl.unshown }

/-- What a change of a message runtime marks: nothing, the text lines, or the whole zone (R88, R101). -/
inductive Mark where
  | nothing | text | whole
deriving DecidableEq, Repr

/-- The runtime a place starts with: cursor 7, showing chosen at once (R90, R101). -/
def MessagePlace.start (pl : MessagePlace) (sc : Scene) : MessageRuntime :=
  let rt : MessageRuntime := ⟨pl.unshown, 7, 0, none, none⟩
  match successor 7 (pl.group sc) with
  | some s => pl.showSlot sc rt s
  | none => pl.showNone sc rt

/-- The place leaves a slot for an empty group (R97, R99); the synthetic zone makes no move, since it does not become
IDLE or EMPTY (R101). -/
def MessagePlace.leaveSlot (pl : MessagePlace) (sc : Scene) (rt : MessageRuntime) : MessageRuntime × Mark :=
  if pl.zone.isNone then (rt, .nothing) else (pl.showNone sc rt, .whole)

/-- A pass or dwell is complete: the place moves on (R98), whatever change of a slot comes just before or after (log
entry 29, DESIGN CHOICE). -/
def MessagePlace.moveOn (pl : MessagePlace) (sc : Scene) (rt : MessageRuntime) : MessageRuntime × Mark :=
  match rt.showing with
  | .slot s =>
    match successor s (pl.group sc) with
    | some t => if t = s then (pl.begin sc rt, .nothing) else (pl.showSlot sc rt t, .whole)
    | none => pl.leaveSlot sc rt
  | .idle => (pl.begin sc rt, .nothing)
  | .empty => (rt, .nothing)

/-- A slot change re-judges the place (R99), as it stands: where a new MESSAGE to the shown slot meets the completion of
its pass, the slot shown after both is what R98 and R99 give in the order taken, and with other slots in the top group
the two orders end in different slots, though R100 says the same (log entry 29, DESIGN CHOICE). -/
def MessagePlace.rejudge (pl : MessagePlace) (slot : Fin 8) (newText : Bool) (sc : Scene) (rt : MessageRuntime) :
    MessageRuntime × Mark :=
  match rt.showing with
  | .slot s =>
    if s ∈ pl.group sc then
      if s = slot ∧ newText = true then (pl.begin sc rt, .whole) else (rt, .nothing)
    else
      match successor s (pl.group sc) with
      | some t => (pl.showSlot sc rt t, .whole)
      | none => pl.leaveSlot sc rt
  | .idle | .empty =>
    match successor rt.cursor (pl.group sc) with
    | some t => (pl.showSlot sc rt t, .whole)
    | none => (rt, .nothing)

/-- One scroll step of a running pass, which it may complete (R95); a stopped step timer does nothing (R91). -/
def MessagePlace.step (pl : MessagePlace) (sc : Scene) (rt : MessageRuntime) : MessageRuntime × Mark :=
  match rt.stepTimer with
  | none => (rt, .nothing)
  | some _ =>
    if pl.shownWidth sc rt.showing + pl.width ≤ rt.offset + 1 then
      match pl.moveOn sc { rt with offset := 0 } with
      | (rt', .whole) => (rt', .whole)
      | (rt', _) => (rt', .text)
    else ({ rt with offset := rt.offset + 1 }, .text)

/-- One second of a running dwell counter, which may expire (R91, R96). -/
def MessagePlace.tick (pl : MessagePlace) (sc : Scene) (rt : MessageRuntime) : MessageRuntime × Mark :=
  match rt.dwell with
  | none => (rt, .nothing)
  | some n => if n ≤ 1 then pl.moveOn sc rt else ({ rt with dwell := some (n - 1) }, .nothing)

/-- The runtime of a message place. -/
def Display.messageRuntime? (d : Display) : MsgZone → Option MessageRuntime
  | .zone z =>
    match d.seq.runtimes.find z.val with
    | some (.message rt) => some rt
    | _ => none
  | .synthetic p => d.seq.synthetic.get p

/-- The runtime of a message place written. -/
def Display.setMessageRuntime (d : Display) (ref : MsgZone) (rt : MessageRuntime) : Display :=
  match ref with
  | .zone z => d.setRuntime z.val (some (.message rt))
  | .synthetic p => { d with seq := { d.seq with synthetic := d.seq.synthetic.set p (some rt) } }

/-- The lines a mark names, for the height of the font the text stood in (R78, R88, R101). -/
def MessagePlace.markLines (pl : MessagePlace) (fontHeight : Nat) : Mark → List Nat
  | .nothing => []
  | .text =>
    match pl.zone with
    | some zone => zone.textLines pl.row fontHeight
    | none => syntheticTextLines pl.row fontHeight
  | .whole =>
    match pl.zone with
    | some zone => zone.lines pl.row
    | none => List.range pl.row.height

/-- A message runtime changed, with the marks the change makes: a zone's on a NORMAL panel only, the synthetic zone's
while its runtime stands (R85, R101). -/
def onMessage (ref : MsgZone) (f : MessagePlace → Scene → MessageRuntime → MessageRuntime × Mark) (sc : Scene)
    (d : Display) : Display :=
  match messagePlace? sc d.seq.phase ref, d.messageRuntime? ref with
  | some pl, some rt =>
    let (rt', m) := f pl sc rt
    let lines := pl.markLines (sc.bank.font (pl.shownFont sc rt.showing)).height m
    (match pl.zone with
      | some _ => d.markContent pl.panel pl.row lines
      | none => d.mark pl.panel pl.row lines).setMessageRuntime ref rt'
  | _, _ => d

/-- Every reference to a message place: the zones in order, then the synthetic zones. -/
def messageRefs : List MsgZone := (List.finRange 192).map .zone ++ (List.finRange 16).map .synthetic

/-- Only the references that have a runtime, so that the others cost nothing. -/
def Display.liveMessages (d : Display) : List MsgZone := messageRefs.filter fun ref => (d.messageRuntime? ref).isSome

/-! ## Paging, tiles and the clock -/

/-- The snapshot of a page, row by row (R92). -/
def pageSnapshot (entries : List Entry) (first rows index : Nat) : List (Option Nat) :=
  (List.range rows).map fun i => (entries[first + index * rows + i]?).map Entry.sid

/-- The page count of a turn (R92). -/
def pageCount (length first rows pages : Nat) : Nat := max 1 (min pages (ceilDiv (length - first) rows))

/-- A paged zone turns: next index, fresh snapshot, dwell loaded, every row marked (R92). -/
def turnPage (z : Nat) (sc : Scene) (d : Display) : Display :=
  match sc.zone z, d.seq.runtimes.find z with
  | some (p, row, zone), some (.page index _ _) =>
    match zone.kind with
    | .rows board _ first rows gap pages dwell =>
      let entries := sc.boards.get board
      let next := (index + 1) % pageCount entries.length first rows pages
      let lines := (List.range rows).flatMap (zone.rowLines row (sc.bank.font zone.font).height gap)
      (d.markContent p row lines).setRuntime z (some (.page next (pageSnapshot entries first rows next) dwell))
    | _ => d
  | _, _ => d

/-- A stepping TILE zone steps: next tile, dwell loaded, the tile's lines marked (R102). -/
def stepTile (z : Nat) (sc : Scene) (d : Display) : Display :=
  match sc.zone z, d.seq.runtimes.find z with
  | some (p, row, zone), some (.tile current _) =>
    match zone.kind with
    | .tile first last dwell =>
      (d.markContent p row (zone.clippedLines row zone.y 16)).setRuntime z
        (some (.tile (if current = last then first else current + 1) dwell))
    | _ => d
  | _, _ => d

/-- One second of a zone's dwell counter: its rule acts where the counter reaches 0 (R91). -/
def tickZone (z : Fin 192) (sc : Scene) (d : Display) : Display :=
  match d.seq.runtimes.find z.val with
  | some (.page index snapshot n) =>
    if n ≤ 1 then turnPage z.val sc d else d.setRuntime z.val (some (.page index snapshot (n - 1)))
  | some (.tile current n) =>
    if n ≤ 1 then stepTile z.val sc d else d.setRuntime z.val (some (.tile current (n - 1)))
  | some (.message _) => onMessage (.zone z) MessagePlace.tick sc d
  | some (.clock _) | none => d

/-- Every running dwell counter takes its second: the zones in order, then the synthetic zones (R91). -/
def tickDwells (sc : Scene) (d : Display) : Display :=
  let zones := (List.finRange 192).filter fun z => (d.seq.runtimes.find z.val).isSome
  let d := zones.foldl (fun d z => tickZone z sc d) d
  (List.finRange 16).foldl (fun d p => onMessage (.synthetic p) MessagePlace.tick sc d) d

/-- One CLOCK zone takes a clock change (R103). -/
def clockZone (sc : Scene) (d : Display) (e : Nat × Fin 16 × PanelRow × Zone) : Display :=
  let (z, p, row, zone) := e
  match zone.kind, d.seq.runtimes.find z with
  | .clock seconds _, some (.clock drawn) =>
    let text := clockText sc.clock seconds
    if text = drawn then d
    else
      (d.markContent p row (zone.textLines row (sc.bank.font zone.font).height)).setRuntime z (some (.clock text))
  | _, _ => d

/-- The Zone Sequencer takes a clock change (R32, R103). -/
def clockZones (sc : Scene) (d : Display) : Display := sc.zones.foldl (clockZone sc) d

/-- The runtime a zone starts with, where its kind has one (R90). -/
def startRuntime (sc : Scene) (phase : Phase) (p : Fin 16) (row : PanelRow) (zone : Zone) : Option ZoneRuntime :=
  match zone.kind with
  | .rows board _ first rows _ pages dwell =>
    if pages = 1 then none else some (.page 0 (pageSnapshot (sc.boards.get board) first rows 0) dwell)
  | .message _ _ _ _ => (zonePlace? phase p row zone).map fun pl => .message (pl.start sc)
  | .clock seconds _ => some (.clock (clockText sc.clock seconds))
  | .tile first last dwell => if first = last then none else some (.tile first dwell)
  | .text _ _ _ => none

/-- The page runtimes of a panel's paged zones restart (R94). -/
def restartPaging (p : Fin 16) (sc : Scene) (d : Display) : Display :=
  sc.zones.foldl (fun d e =>
    let (z, q, row, zone) := e
    match zone.kind with
    | .rows _ _ _ _ _ pages _ =>
      if q = p ∧ pages ≠ 1 then d.setRuntime z (startRuntime sc d.seq.phase q row zone) else d
    | _ => d) d

/-! ## Views -/

/-- Whether an EMERGENCY slot that is ACTIVE or LOCKED has the panel in its mask (R120). -/
def emergencyFor (sc : Scene) (p : Fin 16) : Bool := !(topGroup sc.slots p .emergency).isEmpty

/-- The view of a present panel: the first case that holds (R120). -/
def chosenView (sc : Scene) (p : Fin 16) (row : PanelRow) : PanelView :=
  if emergencyFor sc p = true ∧ row.policy = .full then .emergency
  else if sc.mode = .night then .blank
  else if sc.mode = .test then .test
  else if sc.silent = true ∧ row.fallback.isSome = true then .fallback
  else .normal

/-- A view command set on a panel, in place of one not yet sent (R121). -/
def Display.setViewCommand (d : Display) (p : Fin 16) (c : ViewCommand) : Display :=
  d.onPanel p fun r => { r with viewCommand := some c }

/-- The view command a view change sets: BLANK on entering BLANK, UNBLANK on leaving it, none at any other (R121). -/
def Display.commandChange (d : Display) (p : Fin 16) (view : PanelView) : Display :=
  if view = .blank then d.setViewCommand p .blank
  else if d.seq.views.get p = some .blank then d.setViewCommand p .unblank
  else d

/-- What a view change sets and marks: its view command (R121), and every line of the panel (R88, R89, R124, R138).
DEDUCED for a change into BLANK, log entry 25: R121 names the command alone there, the other rules every change. -/
def commandView (p : Fin 16) (row : PanelRow) (view : PanelView) (d : Display) : Display :=
  (d.commandChange p view).markPanel p row

/-- The view entered: it stands for the panel, and the synthetic message zone starts in EMERGENCY and is discarded in any
other view (R101, R121). -/
def enterView (sc : Scene) (p : Fin 16) (row : PanelRow) (view : PanelView) (d : Display) : Display :=
  { d with seq := { d.seq with
    views := d.seq.views.set p (some view)
    synthetic := d.seq.synthetic.set p
      (if view = .emergency then some ((syntheticPlace d.seq.phase p row).start sc) else none) } }

/-- A panel's view changes (R121): commands and marks, the view entered, and the page restart on entering NORMAL
(R94). -/
def changeView (sc : Scene) (p : Fin 16) (row : PanelRow) (view : PanelView) (d : Display) : Display :=
  if view = .normal then restartPaging p sc (enterView sc p row view (commandView p row view d))
  else enterView sc p row view (commandView p row view d)

/-- One panel's view chosen again; a view that comes out the same changes nothing (R120). -/
def rechooseView (sc : Scene) (d : Display) (p : Fin 16) : Display :=
  match sc.panel p with
  | none => d
  | some row =>
    if d.seq.views.get p = some (chosenView sc p row) then d else changeView sc p row (chosenView sc p row) d

/-- Every present panel's view chosen again (R120). -/
def rechooseViews (sc : Scene) (d : Display) : Display := (List.finRange 16).foldl (rechooseView sc) d

/-- A slot change is handed on: message zones re-judged, then views chosen again (R99, R106, R120). -/
def slotChange (slot : Fin 8) (newText : Bool) (sc : Scene) (d : Display) : Display :=
  rechooseViews sc
    (d.liveMessages.foldl (fun d ref => onMessage ref (fun pl => pl.rejudge slot newText) sc d) d)

/-! ## The language phase -/

/-- The other phase. -/
def Phase.other : Phase → Phase
  | .primary => .secondary
  | .secondary => .primary

/-- A flip's marks on one panel's own view (R122): every line in FALLBACK, the text lines of a LOCKED alert in
EMERGENCY. -/
def flipPanel (sc : Scene) (d : Display) (p : Fin 16) : Display :=
  match sc.panel p with
  | none => d
  | some row =>
    match d.seq.views.get p, d.seq.synthetic.get p with
    | some .fallback, _ => d.markPanel p row
    | some .emergency, some rt =>
      match rt.showing with
      | .slot n =>
        match sc.slots.get n with
        | .locked _ => d.mark p row (syntheticTextLines row (sc.bank.font row.emergencyFont).height)
        | _ => d
      | _ => d
    | _, _ => d

/-- The device language phase flips: count 0, ALTERNATE zones of NORMAL panels marked, and the views that draw strings
of their own (R88, R104, R122). -/
def flipPhase (sc : Scene) (d : Display) : Display :=
  let flipped : Display := { d with seq := { d.seq with phase := d.seq.phase.other, langCount := 0 } }
  let zoned := sc.zones.foldl (fun d e =>
    let (_, p, row, zone) := e
    if zone.language = .alternate then d.markContent p row (zone.lines row) else d) flipped
  (List.finRange 16).foldl (flipPanel sc) zoned

/-- Whether the next second of the language count brings a flip (R104). -/
def flipDue (dwell : Nat) (d : Display) : Bool := decide (dwell ≤ d.seq.langCount + 1)

/-- One second of the language count (R104). -/
def tickLanguage (dwell : Nat) (sc : Scene) (d : Display) : Display :=
  if flipDue dwell d then flipPhase sc d
  else { d with seq := { d.seq with langCount := d.seq.langCount + 1 } }

/-! ## Panels starting, and restarts of the whole display -/

/-- The view command of a panel that becomes STARTING (R121, R143). -/
def startCommand (view : Option PanelView) : ViewCommand := if view = some .blank then .blank else .unblank

/-- The bus record of a panel that becomes STARTING (R143). -/
def PanelBusRecord.starting (view : Option PanelView) : PanelBusRecord :=
  ⟨.starting, 0, none, none, false, some (startCommand view), true⟩

/-- A panel becomes STARTING: its bus record anew, every line marked, its refresh cursor at 0 (R126, R143). -/
def startPanel (p : Fin 16) (row : PanelRow) (d : Display) : Display where
  seq := d.seq
  panels := d.panels.set p (PanelBusRecord.starting (d.seq.views.get p))
  lines := ⟨d.lines.dirty.set p (List.range row.height), d.lines.cursor.set p 0⟩

/-- Every runtime, view and panel of the active bank starts afresh, as at a swap or a RESTART; the language phase and
its count stay (R90, R105, R120, R126, R128, R143). -/
def restartDisplay (sc : Scene) (d : Display) : Display :=
  let view (p : Fin 16) : Option PanelView := (sc.panel p).map (chosenView sc p)
  { seq :=
      { phase := d.seq.phase
        langCount := d.seq.langCount
        runtimes := sc.zones.filterMap fun e =>
          (startRuntime sc d.seq.phase e.2.1 e.2.2.1 e.2.2.2).map fun rt => (e.1, rt)
        views := Vec.tabulate view
        synthetic := Vec.tabulate fun p =>
          match sc.panel p with
          | some row =>
            if chosenView sc p row = .emergency then some ((syntheticPlace d.seq.phase p row).start sc) else none
          | none => none }
    lines :=
      ⟨Vec.tabulate fun p =>
          match sc.panel p with
          | some row => List.range row.height
          | none => [],
        Vec.fill 16 0⟩
    panels := Vec.tabulate fun p =>
      match sc.panel p with
      | some _ => PanelBusRecord.starting (view p)
      | none => PanelBusRecord.absent }

end Sys2Proof.Machine
end

