-- ==== Sys2Proof/Machine/Compose.lean ====
section
/-! DEFINITION. The Line Coder: composing one panel line (R129 to R134), coding it in RUN or PACKED form (R135, R136),
and the frames of the panel buses (R137, R144, R162, R189). A line is composed pixel by pixel: each layer answers the
colour number it draws at a pixel, or nothing. -/

namespace Sys2Proof.Machine

/-! ## Colours and glyphs -/

/-- The place of a role among a palette's role indices (R187). -/
def ColourRole.index : ColourRole → Nat
  | .text => 0
  | .destination => 1
  | .time => 2
  | .delayed => 3
  | .cancelled => 4
  | .stale => 5
  | .message => 6
  | .emergency => 7

/-- The colour number of a role in a panel's palette, 0 for a palette never loaded (R65, R74). -/
def Bank.roleColour (bank : Bank) (palette : Nat) (role : ColourRole) : Colour :=
  match bank.palettes.find palette with
  | some pal => pal.roles.getD role.index 0
  | none => 0

/-- The colour role a shown role is drawn in (R37, R74). -/
def ShownRole.colourRole : ShownRole → ColourRole
  | .time => .time
  | .delayed => .delayed
  | .cancelled => .cancelled
  | .stale => .stale

/-- Whether pixel j of row r of a glyph is set: bit 7 − (j mod 8) of byte j div 8 of the row (R187). -/
def Glyph.pixel (g : Glyph) (r j : Nat) : Bool :=
  (g.rows.getD (r * ceilDiv g.width 8 + j / 8) 0).getLsbD (7 - j % 8)

/-- A text set for drawing: its font, its glyph codes, its start pixel (a scrolling text may start left of the panel)
and its top line (R131). -/
structure SetText where
  font : Font
  codes : List Nat
  start : Int
  top : Nat
deriving DecidableEq, Repr

/-- The present glyphs of a text with their pen positions (R131). -/
def penPositions (bank : Bank) (spacing : Nat) : Int → List Nat → List (Int × Glyph)
  | _, [] => []
  | pen, c :: rest =>
    match bank.glyphs.find c with
    | none => penPositions bank spacing pen rest
    | some g => (pen, g) :: penPositions bank spacing (pen + g.width + spacing) rest

/-- Whether a glyph at a pen position sets pixel x on its row r (R131). -/
def glyphSets (r : Nat) (x : Nat) (pg : Int × Glyph) : Bool :=
  decide (pg.1 ≤ x ∧ (x : Int) < pg.1 + pg.2.width ∧ r < pg.2.rowCount) && pg.2.pixel r ((x : Int) - pg.1).toNat

/-- Whether a text sets pixel x of line y, before any clipping (R131). -/
def SetText.sets (t : SetText) (bank : Bank) (x y : Nat) : Bool :=
  decide (t.top ≤ y ∧ y < t.top + t.font.height) &&
    (penPositions bank t.font.spacing t.start t.codes).any (glyphSets (y - t.top) x)

/-- Pixel (j, i) of a tile, 0 on a segment never loaded (R55, R187). -/
def Tile.pixel (t : Tile) (j i : Nat) : Nat :=
  let segment := (if i < 8 then t.upper else t.lower).getD []
  let byte := byteAt segment (i % 8 * 16 + j / 2)
  if j % 2 = 0 then byte / 16 else byte % 16

/-! ## What a zone draws -/

/-- The entry departure row i of a ROWS zone shows (R82, R93). -/
def rowEntry (sc : Scene) (rt : Option ZoneRuntime) (board : Fin 8) (first pages i : Nat) : Option Entry :=
  let entries := sc.boards.get board
  if pages = 1 then entries[first + i]?
  else
    match rt with
    | some (.page _ snapshot _) =>
      match snapshot.getD i none with
      | some sid => entries.find? fun e => decide (e.sid = sid)
      | none => none
    | _ => none

/-- What one column draws at a pixel of a departure row whose top line is `top` (R83, R84, R133). -/
def columnPixel (sc : Scene) (row : PanelRow) (zone : Zone) (phase : Phase) (top : Nat) (e : Entry) (x y : Nat)
    (c : Column) : Option Colour :=
  let boxX := zone.x + c.xOffset
  if x < boxX || boxX + c.width ≤ x then none
  else
    let font := sc.bank.font zone.font
    let codes := fieldCodes sc.bank (drawsSecondary zone.language phase) font.digitBase e c.field
    let start := alignedStart c.align boxX c.width (sc.bank.textWidth font codes)
    if (SetText.mk font codes start top).sets sc.bank x y then
      some (sc.bank.roleColour row.palette (if c.field = .time then e.role.colourRole else c.role))
    else none

/-- The last thing drawn at a pixel by a list of layers, the later over the earlier (R83). -/
def lastDrawn {α : Type} (layers : List α) (draws : α → Option Colour) : Option Colour :=
  layers.foldl (fun acc a => (draws a).or acc) none

/-- What the departure rows of a ROWS zone draw at a pixel (R82, R83); nothing where the row format is absent (R65). -/
def rowsPixel (sc : Scene) (row : PanelRow) (zone : Zone) (phase : Phase) (rt : Option ZoneRuntime) (board : Fin 8)
    (format first rows gap pages : Nat) (x y : Nat) : Option Colour :=
  let height := (sc.bank.font zone.font).height
  let i := (y - zone.y) / (height + gap)
  let top := zone.y + i * (height + gap)
  if rows ≤ i || top + height ≤ y then none
  else
    match sc.bank.formats.find format, rowEntry sc rt board first pages i with
    | some columns, some e => lastDrawn columns (columnPixel sc row zone phase top e x y)
    | _, _ => none

/-- A colour where a text sets a pixel. -/
def textPixel (bank : Bank) (t : SetText) (colour : Colour) (x y : Nat) : Option Colour :=
  if t.sets bank x y then some colour else none

/-- The text of a single-line zone, placed by an alignment (R78, R133). -/
def Zone.setText (zone : Zone) (bank : Bank) (font : Font) (codes : List Nat) (align : Align) : SetText :=
  ⟨font, codes, alignedStart align zone.x zone.w (bank.textWidth font codes), zone.textTop font.height⟩

/-- The role a message is drawn in: EMERGENCY for an EMERGENCY slot, else MESSAGE (R74, R97). -/
def Showing.role (sc : Scene) : Showing → ColourRole
  | .slot n =>
    match (sc.slots.get n).record? with
    | some r => if r.priority = .emergency then .emergency else .message
    | none => .message
  | .idle | .empty => .message

/-- A shown message text: scrolled from the right edge while a pass runs, else held (R95, R96, R133). -/
def MessagePlace.setText (pl : MessagePlace) (sc : Scene) (rt : MessageRuntime) : SetText :=
  let font := sc.bank.font (pl.shownFont sc rt.showing)
  let codes := pl.shownCodes sc rt.showing
  let left := (pl.zone.map Zone.x).getD 0
  let top := match pl.zone with
    | some zone => zone.textTop font.height
    | none => fullPanelTop pl.row.height font.height
  match rt.stepTimer with
  | some _ => ⟨font, codes, (left : Int) + pl.width - rt.offset, top⟩
  | none => ⟨font, codes, alignedStart .centre left pl.width (sc.bank.textWidth font codes), top⟩

/-- A tile's colour at a pixel of its zone; value 0 is transparent (R81, R134). -/
def tilePixel (sc : Scene) (zone : Zone) (current : Nat) (x y : Nat) : Option Colour :=
  match sc.bank.tiles.find current with
  | none => none
  | some t =>
    if 32 ≤ x - zone.x || 16 ≤ y - zone.y then none
    else
      match t.pixel (x - zone.x) (y - zone.y) with
      | 0 => none
      | v => some (Fin.ofNat 16 v)

/-- The content a zone draws at a pixel of its rectangle (R130). -/
def zoneContent (sc : Scene) (d : Display) (z : Nat) (p : Fin 16) (row : PanelRow) (zone : Zone) (x y : Nat) :
    Option Colour :=
  let font := sc.bank.font zone.font
  let rt := d.seq.runtimes.find z
  let secondary := drawsSecondary zone.language d.seq.phase
  match zone.kind with
  | .rows board format first rows gap pages _ =>
    rowsPixel sc row zone d.seq.phase rt board format first rows gap pages x y
  | .message _ _ _ _ =>
    match zonePlace? d.seq.phase p row zone, rt with
    | some pl, some (.message m) =>
      textPixel sc.bank (pl.setText sc m) (sc.bank.roleColour row.palette (m.showing.role sc)) x y
    | _, _ => none
  | .clock _ align =>
    match rt with
    | some (.clock drawn) =>
      textPixel sc.bank (zone.setText sc.bank font (clockTextCodes sc.bank secondary font.digitBase drawn) align)
        (sc.bank.roleColour row.palette .text) x y
    | _ => none
  | .tile first _ _ =>
    match rt with
    | some (.tile current _) => tilePixel sc zone current x y
    | _ => tilePixel sc zone first x y
  | .text string align role =>
    textPixel sc.bank (zone.setText sc.bank font (sc.bank.stringText secondary string) align)
      (sc.bank.roleColour row.palette role) x y

/-- What a zone leaves at a pixel: its content over its fill, inside its rectangle; nothing where neither draws (R75,
R76, R130). -/
def zonePixel (sc : Scene) (d : Display) (x y : Nat) (e : Nat × Fin 16 × PanelRow × Zone) : Option Colour :=
  let (z, p, row, zone) := e
  if x < zone.x || zone.x + zone.w ≤ x || y < zone.y || zone.y + zone.h ≤ y then none
  else (zoneContent sc d z p row zone x y).or (zone.fill.map (sc.bank.roleColour row.palette))

/-! ## Composing a line -/

/-- The FALLBACK text: the fallback string in the emergency font, in the device phase, centred (R122). -/
def fallbackText (sc : Scene) (phase : Phase) (row : PanelRow) : SetText :=
  let font := sc.bank.font row.emergencyFont
  let codes := (row.fallback.map (sc.bank.stringText (decide (phase = .secondary)))).getD []
  ⟨font, codes, alignedStart .centre 0 row.width (sc.bank.textWidth font codes), fullPanelTop row.height font.height⟩

/-- The EMERGENCY view's text at a pixel (R101, R122); nothing where the shown slot holds no message. -/
def emergencyPixel (sc : Scene) (d : Display) (p : Fin 16) (row : PanelRow) (x y : Nat) : Option Colour :=
  match d.seq.synthetic.get p with
  | some rt =>
    textPixel sc.bank ((syntheticPlace d.seq.phase p row).setText sc rt) (sc.bank.roleColour row.palette .emergency) x y
  | none => none

/-- What a panel's view draws over its background at a pixel (R122, R129, R130). -/
def viewPixel (sc : Scene) (d : Display) (p : Fin 16) (row : PanelRow) (x y : Nat) : Option Colour :=
  match d.seq.views.get p with
  | some .normal => lastDrawn (sc.zones.filter fun e => decide (e.2.1 = p)) (zonePixel sc d x y)
  | some .emergency => emergencyPixel sc d p row x y
  | some .fallback => textPixel sc.bank (fallbackText sc d.seq.phase row) (sc.bank.roleColour row.palette .message) x y
  | some .test => some (Fin.ofNat 16 (y / 4))
  | some .blank | none => none

/-- Line y of a panel: a list of width colour numbers, pixel 0 first (R129). -/
def composeLine (sc : Scene) (d : Display) (p : Fin 16) (row : PanelRow) (y : Nat) : List Colour :=
  (List.range row.width).map fun x => (viewPixel sc d p row x y).getD row.background

/-! ## Coding a line -/

/-- The spans of a line: longest runs of one colour, in pixel order (R135). -/
def spans : List Colour → List (Colour × Nat)
  | [] => []
  | c :: rest =>
    match spans rest with
    | (d, n) :: more => if c = d then (d, n + 1) :: more else (c, 1) :: (d, n) :: more
    | [] => [(c, 1)]

/-- The runs a span is written as: lengths of 16, then what is left (R135). -/
def spanRuns (s : Colour × Nat) : List (Colour × Nat) :=
  List.replicate (s.2 / 16) (s.1, 16) ++ if s.2 % 16 = 0 then [] else [(s.1, s.2 % 16)]

/-- The runs of a line (R135). -/
def lineRuns (line : List Colour) : List (Colour × Nat) := (spans line).flatMap spanRuns

/-- A run byte: colour in the upper four bits, length less 1 in the lower four (R189). -/
def runByte (r : Colour × Nat) : Byte := BitVec.ofNat 8 (r.1.val * 16 + (r.2 - 1))

/-- PACKED form: two colour numbers to the byte, the left pixel's in the upper four bits (R136, R187). -/
def packedBytes : List Colour → List Byte
  | l :: r :: rest => BitVec.ofNat 8 (l.val * 16 + r.val) :: packedBytes rest
  | [l] => [BitVec.ofNat 8 (l.val * 16)]
  | [] => []

/-- The form code and data of a line: RUN (0) where its count is no greater than the PACKED count, else PACKED (1)
(R136, R189). -/
def codeLine (line : List Colour) : Nat × List Byte :=
  if (lineRuns line).length ≤ (packedBytes line).length then (0, (lineRuns line).map runByte) else (1, packedBytes line)

/-! ## Frames -/

/-- Data bits as a line carries them: the marker bit set on the first character, the address of a frame or the kind of a
cell, and clear on every other (R137, R144, R165, R189). -/
def markedChars : List Byte → List BusChar
  | [] => []
  | first :: rest => ⟨first, true⟩ :: rest.map fun b => ⟨b, false⟩

/-- The characters of a frame: address, command, payload length, payload, check (R189). -/
def frameChars (address command : Nat) (payload : List Byte) : List BusChar :=
  markedChars (withCheck (bytes1 address ++ bytes1 command ++ bytes1 payload.length ++ payload))

/-- A LINE frame's characters (R137, R189). -/
def lineChars (address y : Nat) (line : List Colour) : List BusChar :=
  frameChars address 1 (bytes1 y ++ bytes1 (codeLine line).1 ++ (codeLine line).2)

/-- A palette component at an applied level, rounded to the nearest (R162). -/
def scaleComponent (level c : Nat) : Nat := (c * level + 127) / 255

/-- The 48 component bytes of a palette; 16 black colours for one never loaded (R65, R71). -/
def Bank.paletteBytes (bank : Bank) (palette : Nat) : List Byte :=
  match bank.palettes.find palette with
  | some pal => pal.colours
  | none => List.replicate 48 0

/-- A PALETTE frame's characters at an applied level (R144, R162, R189). -/
def paletteChars (bank : Bank) (row : PanelRow) (level : Nat) : List BusChar :=
  frameChars row.address 2
    ((bank.paletteBytes row.palette).map fun c => BitVec.ofNat 8 (scaleComponent level c.toNat))

/-- The command code of a view command (R189). -/
def ViewCommand.command : ViewCommand → Nat
  | .blank => 3
  | .unblank => 4

/-- A BLANK or UNBLANK frame's characters (R144, R189). -/
def viewChars (address : Nat) (c : ViewCommand) : List BusChar := frameChars address c.command []

end Sys2Proof.Machine
end

