-- ==== Sys2Proof/Machine/Light.lean ====
section
/-! DEFINITION. The Light Unit (chapter 9): samples and smoothing, failed sensors, the dimming curve, group levels and
the palettes they make due. -/

namespace Sys2Proof.Machine

/-- The length of the run of samples that changes a sensor's state (R157). -/
def judgeRun : Nat := 40

/-- The smoothed light of a sensor (R156). -/
def Sensor.smoothed (x : Sensor) : Nat := x.accumulator / 8

/-- A GOOD sensor's accumulator takes a sample (R156). -/
def Sensor.feed (x : Sensor) (v : Nat) : Sensor :=
  { x with seeded := true, accumulator := if x.seeded then x.accumulator - x.accumulator / 8 + v else 8 * v }

/-- A sensor takes a sample: it feeds a GOOD sensor's accumulator and is then judged by the run count; the sample that
restores a FAILED sensor seeds it again (R156, R157). -/
def Sensor.sample (x : Sensor) (v : Nat) : Sensor :=
  match x.state with
  | .good =>
    let fed := { x.feed v with lastSample := v }
    if v ≠ 255 then { fed with run := 0 }
    else if judgeRun ≤ x.run + 1 then { fed with state := .failed, run := 0 }
    else { fed with run := x.run + 1 }
  | .failed =>
    if v = 255 then { x with lastSample := v, run := 0 }
    else if judgeRun ≤ x.run + 1 then
      { seeded := true, accumulator := 8 * v, lastSample := v, state := .good, run := 0 }
    else { x with lastSample := v, run := x.run + 1 }

/-- The curve's level for a light (R159): ends flat, straight between points, rounded with a half up. -/
def curveLevel : List (Nat × Nat) → Nat → Nat
  | [], _ => 0
  | [p], _ => p.2
  | p :: q :: rest, s =>
    if s ≤ p.1 then p.2
    else if s < q.1 then p.2 + ((s - p.1) * (q.2 - p.2) + (q.1 - p.1) / 2) / (q.1 - p.1)
    else curveLevel (q :: rest) s

/-- The computed level of a sensor's group with its source (R158). -/
def computedLevel (curve : Option (List (Nat × Nat))) (fallbackLevel : Nat) (x : Sensor) : Group :=
  match curve with
  | none => ⟨fallbackLevel, .fallback⟩
  | some points =>
    if x.state = .good ∧ x.seeded = true then ⟨curveLevel points x.smoothed, .curve⟩ else ⟨fallbackLevel, .fallback⟩

/-- Whether a level is the curve's first or last (R160). -/
def atCurveEnd (curve : Option (List (Nat × Nat))) (level : Nat) : Bool :=
  match curve with
  | none => false
  | some points => decide ((points.head?.map Prod.snd) = some level ∨ (points.getLast?.map Prod.snd) = some level)

/-- The hysteresis step, in levels (R160). -/
def hysteresis : Nat := 6

/-- The applied level after an ordinary occasion (R160). -/
def ordinaryLevel (curve : Option (List (Nat × Nat))) (applied computed : Nat) : Nat :=
  if applied + hysteresis ≤ computed ∨ computed + hysteresis ≤ applied then computed
  else if atCurveEnd curve computed then computed
  else applied

/-- The group after a sample of its sensor, `old` before it and `new` after (R160): by hysteresis on an ordinary
occasion, at once on every other. -/
def sampledGroup (curve : Option (List (Nat × Nat))) (fallbackLevel : Nat) (old new : Sensor) (g : Group) : Group :=
  let computed := computedLevel curve fallbackLevel new
  if old.state = .good ∧ old.seeded = true ∧ new.state = .good ∧ new.seeded = true ∧ computed.source = .curve ∧
      g.source = .curve then
    ⟨ordinaryLevel curve g.level computed.level, .curve⟩
  else computed

/-- PALETTE-pending set on every present panel of a sensor group (R161). -/
def markGroup (sc : Scene) (n : Fin 4) (d : Display) : Display :=
  { d with panels := d.panels.mapIdx fun p r =>
      match sc.panel p with
      | some row => if row.dim = .sensor n then { r with palettePending := true } else r
      | none => r }

/-- A group's applied level and source set; a level that changes makes the group's palettes due (R160, R161). -/
def State.setGroup (s : State) (n : Fin 4) (g : Group) : State :=
  let set : State := { s with light := { s.light with groups := s.light.groups.set n g } }
  if g.level = (s.light.groups.get n).level then set else set.onDisplay fun sc d => markGroup sc n d

/-- One sensor takes a sample, and its group's level follows (R156, R157, R160). -/
def takeSample (n : Fin 4) (v : Nat) (s : State) : State :=
  let old := s.light.sensors.get n
  let new := old.sample v
  State.setGroup { s with light := { s.light with sensors := s.light.sensors.set n new } } n
    (sampledGroup s.tables.activeBank.curve s.settings.fallbackLevel old new (s.light.groups.get n))

/-- All four groups set at once from a curve, as at a swap (R160). -/
def LightUnit.remap (curve : Option (List (Nat × Nat))) (fallbackLevel : Nat) (l : LightUnit) : LightUnit :=
  { l with groups := Vec.tabulate fun n => computedLevel curve fallbackLevel (l.sensors.get n) }

/-- One group after a SET of the fallback level: only where its computed source is fallback (R160). -/
def refallGroup (n : Fin 4) (s : State) : State :=
  let computed := computedLevel s.tables.activeBank.curve s.settings.fallbackLevel (s.light.sensors.get n)
  if computed.source = .fallback then s.setGroup n computed else s

/-- Every group after a SET of the fallback level (R160). -/
def refallAll (s : State) : State := (List.finRange 4).foldl (fun s n => refallGroup n s) s

/-- A panel's applied level: its group's, or its fixed one (R72). -/
def LightUnit.levelOf (l : LightUnit) (row : PanelRow) : Nat :=
  match row.dim with
  | .sensor n => (l.groups.get n).level
  | .fixed level => level

/-! ## The commands -/

/-- LIGHT_SAMPLE: every sensor takes its sample (R156, R157, R160). -/
def execLightSample (s0 s1 s2 s3 : Byte) (s : State) : Host.Outcome State Fault Refusal :=
  .next (takeSample 3 s3.toNat (takeSample 2 s2.toNat (takeSample 1 s1.toNat (takeSample 0 s0.toNat s))))

/-- SENSOR_FAILED: the named sensor takes the sample of 255 that brings its run to 40 (R157); a sensor that one more
such sample would not fail takes nothing (log entry 4). -/
def execSensorFailed (sensor : Fin 4) (s : State) : Host.Outcome State Fault Refusal :=
  .next (if (s.light.sensors.get sensor).state = .good ∧ judgeRun ≤ (s.light.sensors.get sensor).run + 1 then
    takeSample sensor 255 s else s)

/-- SENSOR_RESTORED: the named sensor takes the sample below 255 that brings its run to 40 (R157); a sensor that it
would not restore takes nothing (log entry 4). -/
def execSensorRestored (sensor : Fin 4) (sample : Byte) (s : State) : Host.Outcome State Fault Refusal :=
  .next (if (s.light.sensors.get sensor).state = .failed ∧ judgeRun ≤ (s.light.sensors.get sensor).run + 1 ∧
      sample ≠ 255 then
    takeSample sensor sample.toNat s else s)

end Sys2Proof.Machine
end

