-- ==== Sys2Proof/Machine/Buses.lean ====
section
/-! DEFINITION. The Panel Bus Controllers (chapter 8): choosing and building frames, sending, answers, holds, failures,
FAULT and probing, the refresh of dirty lines, and what a swap does to frames. -/

namespace Sys2Proof.Machine

/-- A bus changed. -/
def State.onBus (s : State) (b : Bus) (f : PanelBus → PanelBus) : State :=
  { s with buses := s.buses.set b (f (s.buses.get b)) }

/-- The panel-bus record of a panel. -/
def State.panelRecord (s : State) (p : Fin 16) : PanelBusRecord := s.disp.panels.get p

/-! ## Candidates (R145, R146) -/

/-- Whether a frame for a panel is in flight or coded ahead on a bus (R145). -/
def PanelBus.serves (bus : PanelBus) (p : Fin 16) : Bool :=
  decide (bus.inFlight.map Frame.panel = some p ∨ bus.codedAhead.map Frame.panel = some p)

/-- Whether a panel has pending work: for a STARTING or ONLINE panel a view command, a palette, or a dirty line while
its view is not BLANK; for a FAULT panel a probe that is due (R145). -/
def hasWork (d : Display) (p : Fin 16) : Bool :=
  let r := d.panels.get p
  match r.state with
  | .absent => false
  | .fault => r.probeDue
  | .starting | .online =>
    r.viewCommand.isSome || r.palettePending ||
      (decide (d.seq.views.get p ≠ some .blank) && !(d.lines.dirty.get p).isEmpty)

/-- Whether a panel of a bus is a candidate (R145). -/
def isCandidate (s : State) (b : Bus) (p : Fin 16) : Bool :=
  (match s.scene.panel p with
    | some row => decide (row.bus = b)
    | none => false) &&
  hasWork s.disp p && decide ((s.panelRecord p).gapTimer = none) && !(s.buses.get b).serves p

/-- The panel numbers in the order a choice looks at them: from after the marker round to the marker (R146). -/
def choiceOrder (marker : Fin 16) : List (Fin 16) := (List.finRange 16).map fun i => marker + 1 + i

/-- The panel a bus chooses: the first candidate of the EMERGENCY tier, else the first of all (R146). -/
def chosenPanel (s : State) (b : Bus) : Option (Fin 16) :=
  let order := choiceOrder (s.buses.get b).marker
  match order.find? fun p => decide (s.disp.seq.views.get p = some .emergency) && isCandidate s b p with
  | some p => some p
  | none => order.find? (isCandidate s b)

/-! ## Building and starting frames (R144, R147) -/

/-- The work of the frame chosen for a panel: a probe for a FAULT panel, else its view command, its palette, or its
lowest dirty line (R125, R145, R152). -/
def chosenWork (d : Display) (p : Fin 16) : Option FrameWork :=
  let r := d.panels.get p
  if r.state = .fault then some .palette
  else
    match r.viewCommand with
    | some c => some (.view c)
    | none => if r.palettePending then some .palette else (d.lines.dirty.get p).head?.map .line

/-- The pending work of a panel once it is built into a frame (R125, R144, R152). -/
def clearWork (p : Fin 16) (w : FrameWork) (d : Display) : Display :=
  match w with
  | .line _ => { d with lines := { d.lines with dirty := d.lines.dirty.update p List.tail } }
  | .palette => d.onPanel p fun r => { r with palettePending := false, probeDue := false }
  | .view _ => d.onPanel p fun r => { r with viewCommand := none }

/-- The characters of a frame for some work, built from the state as it stands (R125, R137, R144). -/
def workChars (s : State) (p : Fin 16) (row : PanelRow) : FrameWork → List BusChar
  | .line y => lineChars row.address y (composeLine s.scene s.disp p row y)
  | .palette => paletteChars s.tables.activeBank row (s.light.levelOf row)
  | .view c => viewChars row.address c

/-- The frame for some work of a panel (R144). -/
def buildFrame (s : State) (p : Fin 16) (row : PanelRow) (w : FrameWork) : Frame :=
  ⟨p, row.address, w, workChars s p row w, none, false⟩

/-- A frame starts on a bus: SENDING, at the rate as set now (R140, R141, R147). -/
def PanelBus.start (rate : Nat) (f : Frame) (bus : PanelBus) : PanelBus :=
  { bus with state := .sending, inFlight := some { f with rate := some rate } }

/-- An IDLE bus starts its coded-ahead frame, if it has one (R147, R151). -/
def PanelBus.startAhead (rate : Nat) (bus : PanelBus) : PanelBus :=
  match bus.state, bus.codedAhead with
  | .idle, some f => { bus.start rate f with codedAhead := none }
  | _, _ => bus

/-- A chosen frame takes its place: it starts on an IDLE bus, and else waits coded ahead; the marker follows (R146,
R147). -/
def PanelBus.place (rate : Nat) (f : Frame) (bus : PanelBus) : PanelBus :=
  if bus.state = .idle then { bus.start rate f with marker := f.panel }
  else { bus with codedAhead := some f, marker := f.panel }

/-- Whether a bus may choose: nothing coded ahead, enabled, not HELD (R145). -/
def mayChoose (s : State) (b : Bus) : Bool :=
  (s.buses.get b).codedAhead.isNone && s.settings.busEnable.get b && decide ((s.buses.get b).state ≠ .held)

/-- A bus chooses a frame, where it may and has a candidate (R145 to R147). -/
def chooseFrame (b : Bus) (s : State) : State :=
  if mayChoose s b then
    match chosenPanel s b with
    | none => s
    | some p =>
      match s.scene.panel p, chosenWork s.disp p with
      | some row, some w =>
        State.onBus { s with disp := clearWork p w s.disp } b
          (PanelBus.place (s.settings.busRate.get b) (buildFrame s p row w))
      | _, _ => s
  else s

/-- A bus chooses while it may, as at an outcome, at the end of HELD and at its enable (R147, R151, R153): one choice
starts a frame on an IDLE bus, and the next fills the empty coded-ahead place, after which it may choose no more (R145).
That two choices are made is DEDUCED, log entry 7. -/
def chooseAgain (b : Bus) (s : State) : State := chooseFrame b (chooseFrame b s)

/-! ## Outcomes (R148 to R152) -/

/-- The failure count at which a panel becomes FAULT (R150). -/
def faultCount : Nat := 8

/-- The probe period, in seconds (R150, R152). -/
def probePeriod : Nat := 10

/-- The answer timer, in milliseconds (R148). -/
def answerTime : Nat := 2

/-- The class gap, in milliseconds (R70). -/
def classGap : Nat → Nat
  | 0 => 0
  | 1 => 1
  | 2 => 4
  | _ => 10

/-- The work of a frame handed back (R150): its line marked, its palette pending, its view command pending unless
another has been set since. -/
def handBack (sc : Scene) (f : Frame) (d : Display) : Display :=
  match f.work with
  | .line y =>
    match sc.panel f.panel with
    | some row => d.mark f.panel row [y]
    | none => d
  | .palette => d.onPanel f.panel fun r => { r with palettePending := true }
  | .view c => d.onPanel f.panel fun r => { r with viewCommand := r.viewCommand.or (some c) }

/-- A panel's failure count rises by one (R150, R152): the eighth makes it FAULT, and a failed probe sets the next. -/
def PanelBusRecord.failed (r : PanelBusRecord) : PanelBusRecord :=
  let count := saturate 255 r.failures
  match r.state with
  | .absent => r
  | .fault => { r with failures := count, probeTimer := some probePeriod }
  | .starting | .online =>
    if faultCount ≤ count then
      { r with failures := count, state := .fault, probeTimer := some probePeriod, probeDue := false }
    else { r with failures := count }

/-- A frame's panel takes an ACK: a FAULT panel becomes STARTING, any other ONLINE with its count at 0 (R149, R152). -/
def acknowledge (sc : Scene) (f : Frame) (d : Display) : Display :=
  match (d.panels.get f.panel).state, sc.panel f.panel with
  | .fault, some row => startPanel f.panel row d
  | .starting, _ | .online, _ => d.onPanel f.panel fun r => { r with state := .online, failures := 0 }
  | _, _ => d

/-- A frame's panel takes a failure (R150). -/
def failFrame (sc : Scene) (f : Frame) (d : Display) : Display :=
  (handBack sc f d).onPanel f.panel PanelBusRecord.failed

/-- The class gap of a frame's panel starts; a gap of 0 expires as it starts (R148). -/
def startGap (sc : Scene) (f : Frame) (d : Display) : Display :=
  match sc.panel f.panel with
  | some row =>
    d.onPanel f.panel fun r => { r with gapTimer := if classGap row.busClass = 0 then none else some (classGap row.busClass) }
  | none => d

/-- A bus after an outcome: no frame in flight, timers stopped, HELD while its clock line is low and else IDLE (R148,
R151). -/
def PanelBus.afterOutcome (clockLow : Bool) (bus : PanelBus) : PanelBus :=
  { bus with
    state := if clockLow then .held else .idle
    inFlight := none
    answerTimer := none
    holdTimer := none }

/-- What a frame's outcome does to its panel (R148 to R152); nothing for a frame a swap has orphaned (R154). -/
def judgeOutcome (f : Frame) (ack : Bool) (s : State) : State :=
  if f.orphaned then s
  else s.onDisplay fun sc d => startGap sc f (if ack then acknowledge sc f d else failFrame sc f d)

/-- The outcome of the frame in flight is taken (R148 to R151, R154), and the bus settles: where it is IDLE its coded-ahead
frame starts. -/
def settleOutcome (b : Bus) (ack : Bool) (s : State) : State :=
  match (s.buses.get b).inFlight with
  | none => s
  | some f =>
    (judgeOutcome f ack s).onBus b fun bus =>
      (bus.afterOutcome (s.pins.clockLow.get b)).startAhead (s.settings.busRate.get b)

/-- An outcome as a whole: it is taken, and the bus then chooses again (R147); a HELD bus chooses none (R151). -/
def takeOutcome (b : Bus) (ack : Bool) (s : State) : State := chooseAgain b (settleOutcome b ack s)

/-- The data bits of an ACK answer (R189). -/
def ackByte : Byte := 0xA5

/-- An answer character is ACK when its marker is clear and its data bits are A5h (R189). -/
def isAck (data : Byte) (marker : Bool) : Bool := decide (data = ackByte) && !marker

/-! ## The clock line (R148, R151) -/

/-- The level of a bus's clock line set. -/
def State.setClockLow (s : State) (b : Bus) (low : Bool) : State :=
  { s with pins := { s.pins with clockLow := s.pins.clockLow.set b low } }

/-- A panel pulls the clock line low: a hold in AWAITING, a failure of a frame being sent, and else the bus is HELD
(R148, R151). -/
def pullClock (b : Bus) (s : State) : State :=
  let low := s.setClockLow b true
  match (s.buses.get b).state with
  | .awaiting => low.onBus b fun bus => { bus with answerTimer := none, holdTimer := some s.settings.holdLimit }
  | .sending => takeOutcome b false low
  | .idle => low.onBus b fun bus => { bus with state := .held }
  | .held => low

/-- A panel releases the clock line: a hold reopens the answer window, a HELD bus becomes IDLE, starts its coded-ahead
frame, and goes on choosing (R148, R151). -/
def releaseClock (b : Bus) (s : State) : State :=
  let free := s.setClockLow b false
  match (s.buses.get b).state with
  | .awaiting => free.onBus b fun bus => { bus with answerTimer := some answerTime, holdTimer := none }
  | .held =>
    chooseAgain b (free.onBus b fun bus => PanelBus.startAhead (s.settings.busRate.get b) { bus with state := .idle })
  | .idle | .sending => free

/-! ## Disabling, refreshing, probing, swapping -/

/-- The coded-ahead frame discarded with its work handed back, and the probe of a FAULT panel due again (R153). -/
def discardAhead (b : Bus) (s : State) : State :=
  match (s.buses.get b).codedAhead with
  | none => s
  | some f =>
    (s.onDisplay fun sc d => (handBack sc f d).onPanel f.panel fun r =>
        if r.state = .fault then { r with probeDue := true } else r).onBus b
      fun bus => { bus with codedAhead := none }

/-- The lines a refresh marks from a cursor: k consecutive ones, mod the height (R127). -/
def refreshLines (height cursor k : Nat) : List Nat := (List.range k).map fun i => (cursor + i) % height

/-- One ONLINE panel refreshed (R127). -/
def refreshPanel (cycle : Nat) (sc : Scene) (d : Display) (p : Fin 16) : Display :=
  match sc.panel p with
  | none => d
  | some row =>
    if (d.panels.get p).state = .online then
      let k := ceilDiv row.height cycle
      let cursor := d.lines.cursor.get p
      let marked := d.mark p row (refreshLines row.height cursor k)
      { marked with lines := { marked.lines with cursor := marked.lines.cursor.set p ((cursor + k) % row.height) } }
    else d

/-- The refresh cursors follow the timebase second, unless the cycle is 0 (R127). -/
def refreshPanels (cycle : Nat) (sc : Scene) (d : Display) : Display :=
  if cycle = 0 then d else (List.finRange 16).foldl (refreshPanel cycle sc) d

/-- Whether a FAULT panel's next second makes its probe due (R152). -/
def PanelBusRecord.probeNear (r : PanelBusRecord) : Bool :=
  decide (r.state = .fault) &&
    match r.probeTimer with
    | some n => decide (n ≤ 1)
    | none => false

/-- A FAULT panel's probe timer takes its second (R152). -/
def PanelBusRecord.tickProbe (r : PanelBusRecord) : PanelBusRecord :=
  if r.state = .fault then
    match r.probeTimer with
    | some n => if n ≤ 1 then { r with probeTimer := none, probeDue := true } else { r with probeTimer := some (n - 1) }
    | none => r
  else r

/-- The probe timers follow the timebase second (R152). -/
def tickProbes (d : Display) : Display := { d with panels := d.panels.mapIdx fun _ r => r.tickProbe }

/-- Whether a frame's panel stands, in a bank, at the bus and address the frame has (R154). -/
def Frame.stillPlaced (bank : Bank) (b : Bus) (f : Frame) : Bool :=
  match bank.panels.find f.panel.val with
  | some row => decide (row.bus = b ∧ row.address = f.address)
  | none => false

/-- Whether a coded-ahead frame is kept at a swap (R154). -/
def Frame.keptAhead (bank : Bank) (b : Bus) (f : Frame) : Bool :=
  f.stillPlaced bank b &&
    match f.work, bank.panels.find f.panel.val with
    | .line y, some row => decide (y < row.height)
    | _, _ => true

/-- A bus takes a swap to a new active bank (R154). -/
def PanelBus.swapTo (bank : Bank) (b : Bus) (bus : PanelBus) : PanelBus :=
  { bus with
    inFlight := bus.inFlight.map fun f => { f with orphaned := f.orphaned || !f.stillPlaced bank b }
    codedAhead := bus.codedAhead.filter (Frame.keptAhead bank b) }

/-! ## The commands -/

/-- FRAME_CHOICE (R145 to R147); a bus that may not choose, or has no candidate, does nothing. -/
def execFrameChoice (bus : Bus) (s : State) : Host.Outcome State Fault Refusal := .next (chooseFrame bus s)

/-- FRAME_SENT: the last character of the frame in flight goes out (R148); on a bus that is not SENDING none does. -/
def execFrameSent (bus : Bus) (s : State) : Host.Outcome State Fault Refusal :=
  .next (if (s.buses.get bus).state = .sending then
    s.onBus bus fun b => { b with state := .awaiting, answerTimer := some answerTime } else s)

/-- PANEL_ANSWER: a character arrives on the data line; outside AWAITING it is ignored (R148). -/
def execPanelAnswer (bus : Bus) (data : Byte) (marker : Bool) (s : State) : Host.Outcome State Fault Refusal :=
  .next (if (s.buses.get bus).state = .awaiting then takeOutcome bus (isAck data marker) s else s)

/-- The bus whose frame in flight fails for the eighth time running for a panel, where there is one: the panel stands
STARTING or ONLINE one failure short of FAULT, and the bus awaits its answer. -/
def faultingBus (s : State) (p : Fin 16) : Option Bus :=
  let r := s.panelRecord p
  let awaits (b : Bus) : Bool :=
    decide ((s.buses.get b).state = .awaiting) &&
      match (s.buses.get b).inFlight with
      | some f => decide (f.panel = p) && !f.orphaned
      | none => false
  if (r.state = .starting ∨ r.state = .online) ∧ faultCount ≤ r.failures + 1 then [Bus.busA, Bus.busB].find? awaits else none

/-- PANEL_FAULT: the awaited frame of the panel fails and brings its count to 8 (R150); where no such failure can come
next, nothing happens (log entry 4). -/
def execPanelFault (panel : Fin 16) (s : State) : Host.Outcome State Fault Refusal :=
  .next (match faultingBus s panel with
    | some b => takeOutcome b false s
    | none => s)

/-- ANSWER_TIMEOUT: a running answer timer expires (R148). -/
def execAnswerTimeout (bus : Bus) (s : State) : Host.Outcome State Fault Refusal :=
  .next (if (s.buses.get bus).answerTimer.isSome then takeOutcome bus false s else s)

/-- CLOCK_LINE_LOW: a panel pulls the bus clock line low (R148, R151); a line already low does not go low. -/
def execClockLineLow (bus : Bus) (s : State) : Host.Outcome State Fault Refusal :=
  .next (if s.pins.clockLow.get bus then s else pullClock bus s)

/-- CLOCK_LINE_RELEASE: a panel releases the bus clock line (R148, R151); a line that is not low is not released. -/
def execClockLineRelease (bus : Bus) (s : State) : Host.Outcome State Fault Refusal :=
  .next (if s.pins.clockLow.get bus then releaseClock bus s else s)

/-- HOLD_TIMEOUT: a running hold timer expires (R151). -/
def execHoldTimeout (bus : Bus) (s : State) : Host.Outcome State Fault Refusal :=
  .next (if (s.buses.get bus).holdTimer.isSome then takeOutcome bus false s else s)

/-- CLASS_GAP_EXPIRY: a panel's class gap timer expires (R148, R155). -/
def execClassGapExpiry (panel : Fin 16) (s : State) : Host.Outcome State Fault Refusal :=
  .next { s with disp := s.disp.onPanel panel fun r => { r with gapTimer := none } }

/-- PROBE_DUE: the named FAULT panel takes the second that brings its probe timer to 0 (R152); a panel whose timer has
more to run, or is stopped, takes nothing (log entry 4). -/
def execProbeDue (panel : Fin 16) (s : State) : Host.Outcome State Fault Refusal :=
  .next (if (s.panelRecord panel).probeNear then
    { s with disp := s.disp.onPanel panel PanelBusRecord.tickProbe } else s)

end Sys2Proof.Machine
end

