-- ==== Sys2Proof/Machine/Boards.lean ====
section
/-! DEFINITION. The Board Engine (chapter 1) and the derivation of time fields (R37 to R40): ENTRY, WITHDRAW,
CLEAR_BOARD, expiry, re-derivation, age growth, the new day, and STALE_PERIOD_PASSED. -/

namespace Sys2Proof.Machine

/-! ## Order and derivation -/

/-- The key of an entry (R4). -/
def Entry.key (e : Entry) : Nat := e.expected.getD e.sched

/-- Whether an entry orders before another: by key, then by service id (R4). -/
def Entry.before (a b : Entry) : Bool := decide (a.key < b.key ∨ (a.key = b.key ∧ a.sid < b.sid))

/-- An entry put into a board at the place its key and id give (R4, R8). -/
def insertEntry (e : Entry) : List Entry → List Entry
  | [] => [e]
  | x :: rest => if e.before x then e :: x :: rest else x :: insertEntry e rest

/-- The delay role (R40). -/
def delayRole (threshold : Nat) (e : Entry) : ShownRole :=
  match e.expected with
  | some x => if threshold ≠ 0 ∧ e.sched + threshold ≤ x then .delayed else .time
  | none => .time

/-- The countdown field of case 6 (R39): `due` where the key is at most 30 s ahead. -/
def countdown (limit key now : Nat) : TimeField :=
  if key ≤ now + 30 then .due
  else
    let m := (key - now + 30) / 60
    if limit < m then .clock key else .minutes m

/-- Whether an entry is stale (R38, case 3). -/
def staleAge (period age : Nat) : Bool := decide (period ≠ 0 ∧ period < age)

/-- The shown time field and role of an entry, by the first case that holds (R38). -/
def derive (st : Settings) (clock : StationClock) (e : Entry) : TimeField × ShownRole :=
  match e.status with
  | .cancelled => (.cancelled, .cancelled)
  | .held => (.held, .time)
  | .arriving =>
    if staleAge st.stalePeriod e.age then (.staleClock e.sched, .stale) else (.arriving, delayRole st.delayThreshold e)
  | .normal =>
    if staleAge st.stalePeriod e.age then (.staleClock e.sched, .stale)
    else
      match clock.state with
      | .unset | .held => (.clock e.key, delayRole st.delayThreshold e)
      | .synced | .drifting => (countdown st.countdownLimit e.key clock.value, delayRole st.delayThreshold e)

/-- An entry with its field and role derived (R5). -/
def Entry.rederived (st : Settings) (clock : StationClock) (e : Entry) : Entry :=
  { e with field := (derive st clock e).1, role := (derive st clock e).2 }

/-- Whether a derivation gives an entry another field or role (R43). -/
def Entry.shownChanges (st : Settings) (clock : StationClock) (e : Entry) : Bool :=
  decide (derive st clock e ≠ (e.field, e.role))

/-- The drawn content of an entry is the same (R3). -/
def Entry.sameDrawn (a b : Entry) : Bool :=
  decide (a.dest = b.dest ∧ a.via = b.via ∧ a.platform = b.platform ∧ a.sched = b.sched ∧ a.cars = b.cars ∧
    a.field = b.field ∧ a.role = b.role)

/-! ## Giving notices -/

/-- A notice given, where there is one, after the board has reached its new state (R18). -/
def State.give (s : State) (n : Option Notice) : State :=
  match n with
  | some n => s.onDisplay (takeNotice n)
  | none => s

/-- A notice, where it has a range or a named id (R17). -/
def noticeOf (b : Fin 8) (range : Option (Nat × Nat)) (ids : List Nat) : Option Notice :=
  if range = none ∧ ids = [] then none else some ⟨b, range, ids⟩

/-- One board replaced, then its notice given. -/
def State.setBoard (s : State) (b : Fin 8) (entries : List Entry) (n : Option Notice) : State :=
  State.give { s with boards := s.boards.set b entries } n

/-- All boards changed at once, then the notices given in board order (R18). -/
def State.changeBoards (s : State) (f : Fin 8 → List Entry → List Entry × Option Notice) : State :=
  (List.finRange 8).foldl (fun t b => t.give (f b (s.boards.get b)).2)
    { s with boards := s.boards.mapIdx fun b l => (f b l).1 }

/-! ## ENTRY -/

/-- The greatest number of entries of a board (R1). -/
def boardSize : Nat := 16

/-- The kind codes of the cells a block may refuse (R169). -/
def entryKind : Nat := 0x10

/-- The kind code of WITHDRAW (R169). -/
def withdrawKind : Nat := 0x11

/-- The kind code of CLEAR_BOARD (R169). -/
def clearBoardKind : Nat := 0x12

/-- An entry whose id stands at position i of its board replaces it (R7). -/
def replaceEntry (s : State) (b : Fin 8) (e : Entry) (i : Nat) (old : Entry) : State :=
  let entries := insertEntry e ((s.boards.get b).eraseIdx i)
  let j := (positionOf e.sid entries).getD i
  s.setBoard b entries
    (if i ≠ j then some ⟨b, some (min i j, max i j), [e.sid]⟩
      else if e.sameDrawn old then none
      else some ⟨b, none, [e.sid]⟩)

/-- A new entry on a board with room: it takes its place, and the notice runs from there to the new end (R8). -/
def insertNew (s : State) (b : Fin 8) (e : Entry) : State :=
  let old := s.boards.get b
  let entries := insertEntry e old
  s.setBoard b entries (some ⟨b, some ((positionOf e.sid entries).getD 0, old.length), []⟩)

/-- A new entry meets a full board: the later of it and the last entry in order is lost, and BOARD_OVERFLOW is raised
(R9, R10). -/
def insertFull (s : State) (b : Fin 8) (e last : Entry) : State :=
  let raised := s.onFlags (Flags.raiseOverflow b)
  if e.before last then
    let entries := insertEntry e ((s.boards.get b).take (boardSize - 1))
    raised.setBoard b entries (some ⟨b, some ((positionOf e.sid entries).getD 0, boardSize - 1), [last.sid]⟩)
  else raised

/-- An entry that passed the checks is posted to a board (R7, R8, R9). -/
def postEntry (s : State) (b : Fin 8) (e : Entry) : State :=
  let old := s.boards.get b
  match positionOf e.sid old with
  | some i =>
    match old[i]? with
    | some x => replaceEntry s b e i x
    | none => s
  | none =>
    match old[boardSize - 1]? with
    | some last => insertFull s b e last
    | none => insertNew s b e

/-- The Board Engine takes an ENTRY (R6 to R9); field and role are derived before the notice is given (R5). -/
def takeEntry (body : EntryBody) (s : State) : State :=
  match finOf? 8 body.board, postedEntry? body with
  | some b, some e => postEntry s b (e.rederived s.settings s.clock)
  | _, _ => s.refuse entryKind .badField

/-! ## WITHDRAW and CLEAR_BOARD -/

/-- The Board Engine takes a WITHDRAW (R11). -/
def takeWithdraw (board sid : Nat) (s : State) : State :=
  match finOf? 8 board with
  | some b =>
    if sid = 0 then s.refuse withdrawKind .badField
    else
      let old := s.boards.get b
      match positionOf sid old with
      | some i => s.setBoard b (old.eraseIdx i) (some ⟨b, some (i, old.length - 1), [sid]⟩)
      | none => s
  | none => s.refuse withdrawKind .badField

/-- A board emptied, with the notice that names every id it held (R12, R16). -/
def emptied (b : Fin 8) (entries : List Entry) : List Entry × Option Notice :=
  ([], if entries = [] then none else some ⟨b, some (0, entries.length - 1), entries.map Entry.sid⟩)

/-- The Board Engine takes a CLEAR_BOARD (R12). -/
def takeClearBoard (board : Nat) (s : State) : State :=
  match finOf? 8 board with
  | some b => s.setBoard b (emptied b (s.boards.get b)).1 (emptied b (s.boards.get b)).2
  | none => s.refuse clearBoardKind .badField

/-! ## Expiry, re-derivation, age growth, new day -/

/-- Whether an entry has run out at a clock value (R15). -/
def Entry.ranOut (st : Settings) (t : Nat) (e : Entry) : Bool :=
  match e.status with
  | .cancelled => decide (e.sched + st.cancelHold ≤ t)
  | .normal | .held | .arriving => decide (e.key + st.departureHold ≤ t)

/-- Whether the clock runs (R14, R26). -/
def StationClock.running (c : StationClock) : Bool := decide (c.state = .synced ∨ c.state = .drifting)

/-- One board re-derived, naming the entries whose field or role changes (R5, R43). -/
def rederiveBoard (st : Settings) (clock : StationClock) (b : Fin 8) (entries : List Entry) :
    List Entry × Option Notice :=
  (entries.map (Entry.rederived st clock), noticeOf b none ((entries.filter (Entry.shownChanges st clock)).map Entry.sid))

/-- One board at a clock change: expiry where it runs, then re-derivation, with one notice for both (R14, R15, R18). -/
def expireBoard (st : Settings) (clock : StationClock) (expire : Bool) (b : Fin 8) (entries : List Entry) :
    List Entry × Option Notice :=
  let out (e : Entry) : Bool := expire && clock.running && e.ranOut st clock.value
  let stay := entries.filter fun e => !out e
  (stay.map (Entry.rederived st clock),
    noticeOf b ((entries.findIdx? out).map fun first => (first, entries.length - 1))
      (((entries.filter out) ++ stay.filter (Entry.shownChanges st clock)).map Entry.sid))

/-- A clock change reaches its two readers: the Board Engine runs expiry, where the value was changed or set, and
re-derives; the Zone Sequencer looks at its CLOCK zones (R14, R32, R103). -/
def clockChange (expire : Bool) (s : State) : State :=
  (s.changeBoards (expireBoard s.settings s.clock expire)).onDisplay clockZones

/-- Every board derived again, as after a SET of an input of the derivation (R43, R44). -/
def rederiveAll (s : State) : State := s.changeBoards (rederiveBoard s.settings s.clock)

/-- An entry a second older (R13). -/
def Entry.older (e : Entry) : Entry := { e with age := saturate 65535 e.age }

/-- Whether an entry has just passed the stale period (R13). -/
def Entry.justStale (period : Nat) (e : Entry) : Bool := decide (period ≠ 0 ∧ e.age = period ∧ e.age < 65535)

/-- An entry's age grows by a second, and it is derived again where it passes the stale period (R13). -/
def Entry.grown (st : Settings) (clock : StationClock) (e : Entry) : Entry :=
  if e.justStale st.stalePeriod then e.older.rederived st clock else e.older

/-- Whether the growth of an entry changes what it shows (R13). -/
def Entry.growthShows (st : Settings) (clock : StationClock) (e : Entry) : Bool :=
  e.justStale st.stalePeriod && e.older.shownChanges st clock

/-- One board's ages grow by a second (R13). -/
def growBoard (st : Settings) (clock : StationClock) (b : Fin 8) (entries : List Entry) : List Entry × Option Notice :=
  (entries.map (Entry.grown st clock), noticeOf b none ((entries.filter (Entry.growthShows st clock)).map Entry.sid))

/-- Every age grows by a second, in every clock state (R13). -/
def growAges (s : State) : State := s.changeBoards (growBoard s.settings s.clock)

/-- The start of a new service day: every board emptied, NEW_DAY raised (R16). -/
def startNewDay (s : State) : State := (s.changeBoards emptied).onFlags Flags.raiseNewDay

/-- One board when one of its entries takes its second and passes the stale period. -/
def growOne (st : Settings) (clock : StationClock) (sid : Nat) (b : Fin 8) (entries : List Entry) :
    List Entry × Option Notice :=
  let hit (e : Entry) : Bool := decide (e.sid = sid) && e.justStale st.stalePeriod
  (entries.map fun e => if hit e then e.grown st clock else e,
    noticeOf b none ((entries.filter fun e => hit e && e.growthShows st clock).map Entry.sid))

/-! ## The commands -/

/-- ENTRY (R6 to R9). -/
def execEntry (body : EntryBody) (s : State) : Host.Outcome State Fault Refusal := .next (takeEntry body s)

/-- WITHDRAW (R11). -/
def execWithdraw (board sid : Nat) (s : State) : Host.Outcome State Fault Refusal := .next (takeWithdraw board sid s)

/-- CLEAR_BOARD (R12). -/
def execClearBoard (board : Nat) (s : State) : Host.Outcome State Fault Refusal := .next (takeClearBoard board s)

/-- STALE_PERIOD_PASSED: the named entry of a board takes the second that carries its age past the stale period and is
derived again (R13); an entry whose age does not stand at the stale period takes nothing (log entry 4). -/
def execStalePeriodPassed (board : Fin 8) (sid : Nat) (s : State) : Host.Outcome State Fault Refusal :=
  .next (s.setBoard board (growOne s.settings s.clock sid board (s.boards.get board)).1
    (growOne s.settings s.clock sid board (s.boards.get board)).2)

end Sys2Proof.Machine
end

