-- ==== Sys2Proof/Machine/Clock.lean ====
section
/-! DEFINITION. The Station Clock (chapter 2): TIME, MINUTE_PULSE, its own second, and CLOCK_DRIFTING. -/

namespace Sys2Proof.Machine

/-- The synchronisation age at which a SYNCED clock becomes DRIFTING (R27). -/
def driftAge : Nat := 900

/-- How far back a TIME must go to start a new day (R16, R29). -/
def newDayGap : Nat := 10800

/-- The kind code of TIME (R169). -/
def timeKind : Nat := 0x18

/-- Whether a TIME starts a new service day (R16, R29). -/
def startsNewDay (clock : StationClock) (second : Nat) : Bool :=
  decide (clock.state ≠ .unset ∧ second + newDayGap < clock.value)

/-- The Station Clock takes a TIME (R29). -/
def takeTime (second : Nat) (s : State) : State :=
  if lastSecond < second then s.refuse timeKind .badField
  else
    let begun := if startsNewDay s.clock second then startNewDay s else s
    clockChange true { begun with clock := ⟨second, .synced, 0⟩ }

/-- The clock after a rising edge on MINUTE_PULSE that it accepts (R30, R31). -/
def pulsedClock (c : StationClock) : StationClock :=
  if c.state = .held then { c with age := 0 }
  else
    let s := c.value % 60
    if s ≤ 20 then ⟨c.value - s, .synced, 0⟩
    else if lastSecond < c.value - s + 60 then ⟨lastSecond, .held, 0⟩
    else ⟨c.value - s + 60, .synced, 0⟩

/-- Whether a pulse on a running clock disagrees with it (R30). -/
def pulseDiscords (c : StationClock) : Bool := c.running && decide (21 ≤ c.value % 60 ∧ c.value % 60 ≤ 39)

/-- The Station Clock takes a rising edge on MINUTE_PULSE (R30, R31). Expiry follows only a changed value (R14). -/
def takePulse (s : State) : State :=
  if s.clock.state = .unset then s
  else if pulseDiscords s.clock then s.onFlags Flags.raisePulseDiscord
  else
    let new := pulsedClock s.clock
    let pulsed : State := { s with clock := new }
    if new.value = s.clock.value ∧ new.state = s.clock.state then pulsed
    else clockChange (decide (new.value ≠ s.clock.value)) pulsed

/-- The clock after a timebase second (R27). -/
def secondClock (c : StationClock) : StationClock :=
  let age := saturate 65535 c.age
  match c.state with
  | .unset => ⟨c.value, .unset, age⟩
  | .held => ⟨c.value, .held, age⟩
  | .synced =>
    if lastSecond ≤ c.value then ⟨c.value, .held, age⟩
    else ⟨c.value + 1, if driftAge ≤ age then .drifting else .synced, age⟩
  | .drifting => if lastSecond ≤ c.value then ⟨c.value, .held, age⟩ else ⟨c.value + 1, .drifting, age⟩

/-- The Station Clock takes a timebase second, and hands on a clock change where the value or the state changed (R27,
R32). -/
def tickClock (s : State) : State :=
  let new := secondClock s.clock
  let ticked : State := { s with clock := new }
  if new.value = s.clock.value ∧ new.state = s.clock.state then ticked
  else clockChange (decide (new.value ≠ s.clock.value)) ticked

/-- Whether the next second makes the clock DRIFTING (R27). -/
def driftDue (c : StationClock) : Bool := decide (c.state = .synced ∧ (secondClock c).state = .drifting)

/-! ## The commands -/

/-- TIME (R29). -/
def execTime (second : Nat) (s : State) : Host.Outcome State Fault Refusal := .next (takeTime second s)

/-- MINUTE_PULSE (R30, R31). -/
def execMinutePulse (s : State) : Host.Outcome State Fault Refusal := .next (takePulse s)

/-- CLOCK_DRIFTING: the Station Clock takes the second at which its synchronisation age reaches 900 (R27); a clock that
the next second would not make DRIFTING takes nothing (log entry 4). -/
def execClockDrifting (s : State) : Host.Outcome State Fault Refusal :=
  .next (if driftDue s.clock then tickClock s else s)

end Sys2Proof.Machine
end

