-- ==== Sys2Proof/Machine/Messages.lean ====
section
/-! DEFINITION. The Message Unit and the Contact Inputs (chapter 6): MESSAGE, MESSAGE_END, message durations, the
contact filters, alerts, ACK_ALERT, and the device mode. -/

namespace Sys2Proof.Machine

/-! ## Slots -/

/-- The kind code of MESSAGE (R169). -/
def messageKind : Nat := 0x20

/-- The kind code of MESSAGE_END (R169). -/
def messageEndKind : Nat := 0x21

/-- The kind code of MODE (R169). -/
def modeKind : Nat := 0x49

/-- The kind code of ACK_ALERT (R169). -/
def ackAlertKind : Nat := 0x4A

/-- A slot changed, then the slot change handed on (R106). -/
def State.setSlot (s : State) (i : Fin 8) (slot : Slot) (newText : Bool) : State :=
  State.onDisplay { s with slots := s.slots.set i slot } (slotChange i newText)

/-- Whether a slot is LOCKED. -/
def Slot.isLocked : Slot → Bool
  | .locked _ => true
  | .free | .active _ _ => false

/-- The checks of a MESSAGE cell in their order (R107): the slot and record it would fill, or the reason. -/
def checkMessage (b : MessageBody) (slots : Vec Slot 8) : Except Reason (Fin 8 × MessageRecord) :=
  match finOf? 8 b.slot, priorityOf? b.priority, ranged 0 3 b.font, ranged 1 120 b.count with
  | some i, some priority, some font, some count =>
    if b.tail.length ≠ 2 * count then .error .badLength
    else if (wordsOf b.tail).any fun c => decide (511 < c) then .error .badField
    else if (slots.get i).isLocked then .error .slotLocked
    else .ok (i, ⟨priority, b.mask, font, .codes (wordsOf b.tail)⟩)
  | _, _, _, _ => .error .badField

/-- The Message Unit takes a MESSAGE (R107, R108). -/
def takeMessage (b : MessageBody) (s : State) : State :=
  match checkMessage b s.slots with
  | .ok (i, record) => s.setSlot i (.active record (if b.duration = 0 then none else some b.duration)) true
  | .error reason => s.refuse messageKind reason

/-- The Message Unit takes a MESSAGE_END (R110). -/
def takeMessageEnd (slot : Nat) (s : State) : State :=
  match finOf? 8 slot with
  | none => s.refuse messageEndKind .badField
  | some i =>
    match s.slots.get i with
    | .active _ _ => s.setSlot i .free false
    | .free => s
    | .locked _ => s.refuse messageEndKind .slotLocked

/-- One slot's remaining duration takes its second (R109). -/
def tickSlot (i : Fin 8) (s : State) : State :=
  match s.slots.get i with
  | .active r (some n) =>
    if n ≤ 1 then s.setSlot i .free false else { s with slots := s.slots.set i (.active r (some (n - 1))) }
  | .active _ none | .free | .locked _ => s

/-- Whether the next second ends a slot's message (R109). -/
def Slot.expiryDue : Slot → Bool
  | .active _ (some n) => decide (n ≤ 1)
  | .active _ none | .free | .locked _ => false

/-! ## Contacts -/

/-- Whether a contact is active under its polarity (R112). -/
def contactActive (polarity : Polarity) (filtered : Level) : Bool :=
  match polarity with
  | .activeLow => decide (filtered = .low)
  | .activeHigh => decide (filtered = .high)

/-- Whether contact n is active. -/
def State.contactIsActive (s : State) (n : Fin 4) : Bool :=
  contactActive (s.settings.contacts.get n).polarity (s.contacts.get n).filtered

/-- The slot of contact n: 4 + n (R106). -/
def contactSlot (n : Fin 4) : Fin 8 := ⟨4 + n.val, by omega⟩

/-- One contact changed. -/
def State.onContact (s : State) (n : Fin 4) (f : Contact → Contact) : State :=
  { s with contacts := s.contacts.update n f }

/-- The record an alert fills its slot with (R114). -/
def alertRecord (a : Alert) : MessageRecord := ⟨.emergency, a.mask, 0, .string a.string⟩

/-- A contact raises its alert: the latch sets with the contact's mask and string, and slot 4 + n becomes LOCKED
(R114). -/
def raiseAlert (n : Fin 4) (s : State) : State :=
  let cs := s.settings.contacts.get n
  let alert : Alert := ⟨cs.mask, cs.alertString⟩
  (s.onContact n fun c => { c with latch := some alert }).setSlot (contactSlot n) (.locked (alertRecord alert)) true

/-- A set latch cleared, and slot 4 + n FREE (R113, R115). -/
def clearAlert (n : Fin 4) (s : State) : State :=
  (s.onContact n fun c => { c with latch := none }).setSlot (contactSlot n) .free false

/-- A WATCHING LEVEL contact that is active with its latch clear raises its alert (R113, R114). -/
def judgeLevel (n : Fin 4) (s : State) : State :=
  if (s.contacts.get n).state = .watching ∧ (s.contacts.get n).latch = none ∧
      (s.settings.contacts.get n).mode = .level ∧ s.contactIsActive n = true then raiseAlert n s
  else s

/-- A raw level changes: the filter timer starts, or stops where the level is back at the filtered one (R112). -/
def Contact.changeRaw (filterTime : Nat) (level : Level) (c : Contact) : Contact :=
  if c.raw = level then c
  else { c with raw := level, filterTimer := if level = c.filtered then none else some filterTime }

/-- A running filter timer expires: the filtered level becomes the raw level (R112), and a WATCHING contact with its
latch clear raises its alert where that makes it active, in either mode (R114). -/
def expireFilter (n : Fin 4) (s : State) : State :=
  let c := s.contacts.get n
  match c.filterTimer with
  | none => s
  | some _ =>
    let filtered := s.onContact n fun c => { c with filtered := c.raw, filterTimer := none }
    if c.raw ≠ c.filtered ∧ c.state = .watching ∧ c.latch = none ∧ filtered.contactIsActive n = true then
      raiseAlert n filtered
    else filtered

/-- A SETTLING contact's settling timer expires: it becomes WATCHING, as enabling makes it (R113, R117). -/
def expireSettling (n : Fin 4) (s : State) : State :=
  match (s.contacts.get n).settlingTimer with
  | none => s
  | some _ => judgeLevel n (s.onContact n fun c => { c with state := .watching, settlingTimer := none })

/-- The Contact Inputs take an ACK_ALERT (R115). -/
def takeAckAlert (contact : Nat) (s : State) : State :=
  match finOf? 4 contact with
  | none => s.refuse ackAlertKind .badField
  | some n =>
    match (s.contacts.get n).latch with
    | none => s
    | some _ =>
      if (s.settings.contacts.get n).mode = .level ∧ s.contactIsActive n = true then s.refuse ackAlertKind .stillActive
      else clearAlert n s

/-! ## The device mode -/

/-- The Management Unit takes a MODE; a change is handed to the Zone Sequencer (R118, R120). -/
def takeMode (value : Nat) (s : State) : State :=
  match modeOf? value with
  | none => s.refuse modeKind .badField
  | some m =>
    if m = s.mgmt.mode then s else State.onDisplay { s with mgmt := { s.mgmt with mode := m } } rechooseViews

/-! ## The commands -/

/-- MESSAGE (R107, R108). -/
def execMessage (body : MessageBody) (s : State) : Host.Outcome State Fault Refusal := .next (takeMessage body s)

/-- MESSAGE_END (R110). -/
def execMessageEnd (slot : Nat) (s : State) : Host.Outcome State Fault Refusal := .next (takeMessageEnd slot s)

/-- MESSAGE_DURATION_EXPIRY: the named slot takes the second that brings its remaining duration to 0 (R109); a slot
with more to run, or with no duration, takes nothing (log entry 4). -/
def execMessageDurationExpiry (slot : Fin 8) (s : State) : Host.Outcome State Fault Refusal :=
  .next (if (s.slots.get slot).expiryDue then tickSlot slot s else s)

/-- CONTACT_CHANGE: the raw level of a contact becomes a level (R112). -/
def execContactChange (contact : Fin 4) (level : Level) (s : State) : Host.Outcome State Fault Refusal :=
  .next (s.onContact contact (Contact.changeRaw (s.settings.contacts.get contact).filter level))

/-- FILTER_EXPIRY (R112, R114). -/
def execFilterExpiry (contact : Fin 4) (s : State) : Host.Outcome State Fault Refusal := .next (expireFilter contact s)

/-- SETTLING_EXPIRY (R117). -/
def execSettlingExpiry (contact : Fin 4) (s : State) : Host.Outcome State Fault Refusal :=
  .next (expireSettling contact s)

/-- ACK_ALERT (R115). -/
def execAckAlert (contact : Nat) (s : State) : Host.Outcome State Fault Refusal := .next (takeAckAlert contact s)

/-- MODE (R118). -/
def execMode (value : Nat) (s : State) : Host.Outcome State Fault Refusal := .next (takeMode value s)

end Sys2Proof.Machine
end

