-- ==== Sys2Proof/Machine/Tables.lean ====
section
/-! DEFINITION. The Table Store (chapter 3): TABLE_LOAD, BANK_COPY and its completion, BANK_CLEAR and BANK_SWAP. The
application of a swap, which reaches every consumer, is in Machine/Second.lean. -/

namespace Sys2Proof.Machine

/-- The kind code of TABLE_LOAD (R169). -/
def tableLoadKind : Nat := 0x40

/-- The kind code of BANK_COPY (R169). -/
def bankCopyKind : Nat := 0x41

/-- The kind code of BANK_CLEAR (R169). -/
def bankClearKind : Nat := 0x42

/-- The kind code of BANK_SWAP (R169). -/
def bankSwapKind : Nat := 0x43

/-- The length of a bank copy, in milliseconds (R47, R60). -/
def copyTime : Nat := 80

/-- Whether loads, copies, clears and swaps are refused with BANK_BUSY (R47, R49, R60 to R62). -/
def TableStore.busy (t : TableStore) : Bool := decide (t.standby = .copying) || t.swapPending

/-- The Table Store takes a TABLE_LOAD (R49, R50). -/
def takeTableLoad (table index : Nat) (record : List Byte) (s : State) : State :=
  if s.tables.busy then s.refuse tableLoadKind .bankBusy
  else if s.tables.standby = .faulted then s.refuse tableLoadKind .bankFaulted
  else
    match loadRecord s.tables.standbyBank table index record with
    | .ok bank => { s with tables := { s.tables.setStandbyBank bank with standby := .loaded } }
    | .error reason => State.refuse { s with tables := { s.tables with standby := .faulted } } tableLoadKind reason

/-- The Table Store takes a BANK_COPY (R60). -/
def takeBankCopy (s : State) : State :=
  if s.tables.busy then s.refuse bankCopyKind .bankBusy
  else { s with tables := { s.tables with standby := .copying, copyTimer := some copyTime } }

/-- The Table Store takes a BANK_CLEAR (R61). -/
def takeBankClear (s : State) : State :=
  if s.tables.busy then s.refuse bankClearKind .bankBusy
  else { s with tables := { s.tables.setStandbyBank Bank.empty with standby := .clean } }

/-- The Table Store takes a BANK_SWAP (R62). -/
def takeBankSwap (s : State) : State :=
  if s.tables.busy then s.refuse bankSwapKind .bankBusy
  else if s.tables.standby = .faulted then s.refuse bankSwapKind .bankFaulted
  else { s with tables := { s.tables with swapPending := true } }

/-- The copy timer expires (R60). -/
def TableStore.completeCopy (t : TableStore) : TableStore :=
  { t.setStandbyBank t.activeBank with standby := .clean, copyTimer := none }

/-! ## The commands -/

/-- TABLE_LOAD (R49 to R59). -/
def execTableLoad (table index : Nat) (record : List Byte) (s : State) : Host.Outcome State Fault Refusal :=
  .next (takeTableLoad table index record s)

/-- BANK_COPY (R60). -/
def execBankCopy (s : State) : Host.Outcome State Fault Refusal := .next (takeBankCopy s)

/-- BANK_COPY_COMPLETE: the copy timer expires (R60); an idle timer does not expire. -/
def execBankCopyComplete (s : State) : Host.Outcome State Fault Refusal :=
  .next (if s.tables.copyTimer.isSome then { s with tables := s.tables.completeCopy } else s)

/-- BANK_CLEAR (R61). -/
def execBankClear (s : State) : Host.Outcome State Fault Refusal := .next (takeBankClear s)

/-- BANK_SWAP (R62). -/
def execBankSwap (s : State) : Host.Outcome State Fault Refusal := .next (takeBankSwap s)

end Sys2Proof.Machine
end

