-- ==== Sys2Proof/Machine/Management.lean ====
section
/-! DEFINITION. The Management Unit's settings (R177, R178): every SET, brought into range and handed to the block that
reads it. -/

namespace Sys2Proof.Machine

/-- The kind code of SET (R169). -/
def setKind : Nat := 0x48

/-- The settings changed. -/
def State.onSettings (s : State) (f : Settings → Settings) : State :=
  { s with mgmt := { s.mgmt with settings := f s.mgmt.settings } }

/-- SETTING_CLAMPED raised where the value written differs from the value carried (R178). -/
def State.noteClamp (s : State) (carried written : Nat) : State :=
  if carried = written then s else s.onFlags Flags.raiseSettingClamped

/-- A contact's settings changed. -/
def State.onContactSettings (s : State) (n : Fin 4) (f : ContactSettings → ContactSettings) : State :=
  s.onSettings fun st => { st with contacts := st.contacts.update n f }

/-! ## Setting by setting -/

/-- Departure hold (R14): no expiry of its own. -/
def setDepartureHold (v : Nat) (s : State) : State :=
  (s.onSettings fun st => { st with departureHold := clampRange 0 600 v }).noteClamp v (clampRange 0 600 v)

/-- Cancel hold (R14): no expiry of its own. -/
def setCancelHold (v : Nat) (s : State) : State :=
  (s.onSettings fun st => { st with cancelHold := clampRange 0 1800 v }).noteClamp v (clampRange 0 1800 v)

/-- Stale period, then every board derived again (R44). -/
def setStalePeriod (v : Nat) (s : State) : State :=
  rederiveAll ((s.onSettings fun st => { st with stalePeriod := clampOff 30 3600 v }).noteClamp v (clampOff 30 3600 v))

/-- Countdown limit, then every board derived again (R44). -/
def setCountdownLimit (v : Nat) (s : State) : State :=
  rederiveAll ((s.onSettings fun st => { st with countdownLimit := clampRange 1 99 v }).noteClamp v (clampRange 1 99 v))

/-- Delay threshold, then every board derived again (R44). -/
def setDelayThreshold (v : Nat) (s : State) : State :=
  rederiveAll
    ((s.onSettings fun st => { st with delayThreshold := clampRange 0 3600 v }).noteClamp v (clampRange 0 3600 v))

/-- Language dwell, read at the next timebase second (R104). -/
def setLanguageDwell (v : Nat) (s : State) : State :=
  (s.onSettings fun st => { st with languageDwell := clampRange 2 30 v }).noteClamp v (clampRange 2 30 v)

/-- Silence limit, read at the next timebase second (R173). -/
def setSilenceLimit (v : Nat) (s : State) : State :=
  (s.onSettings fun st => { st with silenceLimit := clampOff 10 600 v }).noteClamp v (clampOff 10 600 v)

/-- Refresh cycle, read at the next timebase second (R127). -/
def setRefreshCycle (v : Nat) (s : State) : State :=
  (s.onSettings fun st => { st with refreshCycle := clampOff 5 255 v }).noteClamp v (clampOff 5 255 v)

/-- A bus's rate, read when a frame starts (R141). -/
def setBusRate (b : Bus) (v : Nat) (s : State) : State :=
  (s.onSettings fun st => { st with busRate := st.busRate.set b (clampRate v) }).noteClamp v (clampRate v)

/-- A bus takes its enable, held before as `was` (R153): the value already held changes nothing; turned on, the bus
chooses again at once; turned off, its coded-ahead frame is discarded with its work handed back. -/
def switchBus (b : Bus) (was on : Bool) (s : State) : State :=
  if was = on then s else if on then chooseAgain b s else discardAhead b s

/-- A bus's enable (R153). -/
def setBusEnable (b : Bus) (v : Nat) (s : State) : State :=
  let on := decide (clampChoice v = 1)
  switchBus b (s.settings.busEnable.get b) on
    ((s.onSettings fun st => { st with busEnable := st.busEnable.set b on }).noteClamp v (clampChoice v))

/-- Hold limit, read when a hold starts (R148). -/
def setHoldLimit (v : Nat) (s : State) : State :=
  (s.onSettings fun st => { st with holdLimit := clampRange 5 255 v }).noteClamp v (clampRange 5 255 v)

/-- Sensor fallback level, taken at once by every group whose computed source is fallback (R160). -/
def setSensorFallbackLevel (v : Nat) (s : State) : State :=
  refallAll ((s.onSettings fun st => { st with fallbackLevel := clampRange 0 255 v }).noteClamp v (clampRange 0 255 v))

/-- A contact takes its enable, held before as `was` (R113): the value already held has no effect; enabling makes it
WATCHING, disabling makes it DISABLED, stops its settling timer and clears a set latch with its slot. -/
def switchContact (n : Fin 4) (was on : Bool) (s : State) : State :=
  if was = on then s
  else if on then judgeLevel n (s.onContact n fun c => { c with state := .watching })
  else
    let off := s.onContact n fun c => { c with state := .disabled, settlingTimer := none }
    if (s.contacts.get n).latch.isSome then clearAlert n off else off

/-- A contact's enable (R113). -/
def setContactEnable (n : Fin 4) (v : Nat) (s : State) : State :=
  switchContact n (s.settings.contacts.get n).enable (decide (clampChoice v = 1))
    ((s.onContactSettings n fun c => { c with enable := decide (clampChoice v = 1) }).noteClamp v (clampChoice v))

/-- A contact's mode (R113). -/
def setContactMode (n : Fin 4) (v : Nat) (s : State) : State :=
  judgeLevel n ((s.onContactSettings n fun c => { c with mode := if clampChoice v = 0 then .edge else .level }).noteClamp
    v (clampChoice v))

/-- A contact's polarity (R113). -/
def setContactPolarity (n : Fin 4) (v : Nat) (s : State) : State :=
  judgeLevel n ((s.onContactSettings n fun c =>
    { c with polarity := if clampChoice v = 0 then .activeLow else .activeHigh }).noteClamp v (clampChoice v))

/-- A contact's filter time, read when the filter timer starts (R112). -/
def setContactFilter (n : Fin 4) (v : Nat) (s : State) : State :=
  (s.onContactSettings n fun c => { c with filter := clampFilter v }).noteClamp v (clampFilter v)

/-- A contact's panel mask, the low 16 bits of the value, read at the next alert (R113, R178). -/
def setContactPanelMask (n : Fin 4) (v : Nat) (s : State) : State :=
  s.onContactSettings n fun c => { c with mask := maskOf v }

/-- A contact's alert string, read at the next alert (R113). -/
def setContactAlertString (n : Fin 4) (v : Nat) (s : State) : State :=
  (s.onContactSettings n fun c => { c with alertString := clampRange 0 1023 v }).noteClamp v (clampRange 0 1023 v)

/-- A contact's setting k (R186). -/
def setContactSetting (n : Fin 4) (k v : Nat) (s : State) : State :=
  match k with
  | 0 => setContactEnable n v s
  | 1 => setContactMode n v s
  | 2 => setContactPolarity n v s
  | 3 => setContactFilter n v s
  | 4 => setContactPanelMask n v s
  | _ => setContactAlertString n v s

/-- The Management Unit takes a SET by its setting number (R178, R186). -/
def takeSet (number v : Nat) (s : State) : State :=
  match number with
  | 0 => setDepartureHold v s
  | 1 => setCancelHold v s
  | 2 => setStalePeriod v s
  | 3 => setCountdownLimit v s
  | 4 => setDelayThreshold v s
  | 5 => setLanguageDwell v s
  | 6 => setSilenceLimit v s
  | 7 => setRefreshCycle v s
  | 8 => setBusRate .busA v s
  | 9 => setBusRate .busB v s
  | 10 => setBusEnable .busA v s
  | 11 => setBusEnable .busB v s
  | 12 => setHoldLimit v s
  | 13 => setSensorFallbackLevel v s
  | k =>
    if k < 16 then s.refuse setKind .badIndex
    else
      match finOf? 4 ((k - 16) / 6) with
      | some n => setContactSetting n ((k - 16) % 6) v s
      | none => s.refuse setKind .badIndex

/-! ## The commands -/

/-- SET_DEPARTURE_HOLD (R14, R178). -/
def execSetDepartureHold (value : Nat) (s : State) : Host.Outcome State Fault Refusal := .next (setDepartureHold value s)

/-- SET_CANCEL_HOLD (R14, R178). -/
def execSetCancelHold (value : Nat) (s : State) : Host.Outcome State Fault Refusal := .next (setCancelHold value s)

/-- SET_STALE_PERIOD (R44, R178). -/
def execSetStalePeriod (value : Nat) (s : State) : Host.Outcome State Fault Refusal := .next (setStalePeriod value s)

/-- SET_COUNTDOWN_LIMIT (R44, R178). -/
def execSetCountdownLimit (value : Nat) (s : State) : Host.Outcome State Fault Refusal :=
  .next (setCountdownLimit value s)

/-- SET_DELAY_THRESHOLD (R44, R178). -/
def execSetDelayThreshold (value : Nat) (s : State) : Host.Outcome State Fault Refusal :=
  .next (setDelayThreshold value s)

/-- SET_LANGUAGE_DWELL (R104, R178). -/
def execSetLanguageDwell (value : Nat) (s : State) : Host.Outcome State Fault Refusal := .next (setLanguageDwell value s)

/-- SET_SILENCE_LIMIT (R173, R178). -/
def execSetSilenceLimit (value : Nat) (s : State) : Host.Outcome State Fault Refusal := .next (setSilenceLimit value s)

/-- SET_REFRESH_CYCLE (R127, R178). -/
def execSetRefreshCycle (value : Nat) (s : State) : Host.Outcome State Fault Refusal := .next (setRefreshCycle value s)

/-- SET_BUS_RATE (R141, R178). -/
def execSetBusRate (bus : Bus) (value : Nat) (s : State) : Host.Outcome State Fault Refusal :=
  .next (setBusRate bus value s)

/-- SET_BUS_ENABLE (R153, R178). -/
def execSetBusEnable (bus : Bus) (value : Nat) (s : State) : Host.Outcome State Fault Refusal :=
  .next (setBusEnable bus value s)

/-- SET_HOLD_LIMIT (R148, R178). -/
def execSetHoldLimit (value : Nat) (s : State) : Host.Outcome State Fault Refusal := .next (setHoldLimit value s)

/-- SET_SENSOR_FALLBACK_LEVEL (R160, R178). -/
def execSetSensorFallbackLevel (value : Nat) (s : State) : Host.Outcome State Fault Refusal :=
  .next (setSensorFallbackLevel value s)

/-- SET_CONTACT_ENABLE (R113, R178). -/
def execSetContactEnable (contact : Fin 4) (value : Nat) (s : State) : Host.Outcome State Fault Refusal :=
  .next (setContactEnable contact value s)

/-- SET_CONTACT_MODE (R113, R178). -/
def execSetContactMode (contact : Fin 4) (value : Nat) (s : State) : Host.Outcome State Fault Refusal :=
  .next (setContactMode contact value s)

/-- SET_CONTACT_POLARITY (R113, R178). -/
def execSetContactPolarity (contact : Fin 4) (value : Nat) (s : State) : Host.Outcome State Fault Refusal :=
  .next (setContactPolarity contact value s)

/-- SET_CONTACT_FILTER (R112, R178). -/
def execSetContactFilter (contact : Fin 4) (value : Nat) (s : State) : Host.Outcome State Fault Refusal :=
  .next (setContactFilter contact value s)

/-- SET_CONTACT_PANEL_MASK (R113, R178). -/
def execSetContactPanelMask (contact : Fin 4) (value : Nat) (s : State) : Host.Outcome State Fault Refusal :=
  .next (setContactPanelMask contact value s)

/-- SET_CONTACT_ALERT_STRING (R113, R178). -/
def execSetContactAlertString (contact : Fin 4) (value : Nat) (s : State) : Host.Outcome State Fault Refusal :=
  .next (setContactAlertString contact value s)

/-- SET_UNKNOWN_SETTING: a SET whose number names no setting is refused (R178); it is taken by its number. -/
def execSetUnknownSetting (number value : Nat) (s : State) : Host.Outcome State Fault Refusal :=
  .next (takeSet number value s)

end Sys2Proof.Machine
end

