-- ==== Sys2Proof/Machine/Reports.lean ====
section
/-! DEFINITION. Queries and reports (R179 to R181, R188), the own-reply queue they join (R171) and the return arbiter
(R172). -/

namespace Sys2Proof.Machine

/-! ## Queues of the return lane -/

/-- The most cells a queue of the Trunk Port holds (R170, R171). -/
def queueSize : Nat := 4

/-- The Trunk Port changed. -/
def State.onTrunk (s : State) (f : TrunkPort → TrunkPort) : State := { s with trunk := f s.trunk }

/-- A return queue's cells. -/
def TrunkPort.queue (t : TrunkPort) : ReturnQueue → List (List Byte)
  | .relay => t.relay
  | .own => t.own

/-- The queue the arbiter serves next: the one that holds cells, and of two the one the marker does not name (R172). -/
def TrunkPort.nextServed (t : TrunkPort) : Option ReturnQueue :=
  match t.relay.isEmpty, t.own.isEmpty with
  | true, true => none
  | false, true => some .relay
  | true, false => some .own
  | false, false => some (if t.lastServed = .relay then .own else .relay)

/-- The trunk rate, in bit/s, that the rate straps select (R165); RATE_1 is the upper bit of the code (log entry 28). -/
def trunkRate (rateCode : Fin 4) : Nat :=
  match rateCode.val with
  | 0 => 115200
  | 1 => 230400
  | 2 => 460800
  | _ => 921600

/-- A cell as the Trunk Port sends it: the marker bit on its first character alone, at the trunk rate (R165). -/
def TrunkPort.transmit (t : TrunkPort) (cell : List Byte) : Transmission := ⟨markedChars cell, trunkRate t.rateCode⟩

/-- TRUNK_OUT sends the head of the forward queue, and rests where there is none (R165, R170). -/
def TrunkPort.sendForward (t : TrunkPort) : TrunkPort := { t with trunkOut := t.forward.head?.map t.transmit }

/-- RETURN_OUT sends the head of the queue being served, and rests where none is (R165, R172). -/
def TrunkPort.sendReturn (t : TrunkPort) : TrunkPort :=
  { t with returnOut := t.sending.bind fun q => (t.queue q).head?.map t.transmit }

/-- The return arbiter acts where RETURN_OUT is idle and a queue holds a cell (R172). -/
def TrunkPort.serve (t : TrunkPort) : TrunkPort :=
  match t.sending, t.nextServed with
  | none, some q => { t with sending := some q, lastServed := q }
  | _, _ => t

/-- The return arbiter acts, and RETURN_OUT sends what it serves (R165, R172). -/
def TrunkPort.arbitrate (t : TrunkPort) : TrunkPort := t.serve.sendReturn

/-- A report joins the own-reply queue, or is dropped with REPLY_DROP (R171). -/
def joinOwn (s : State) (cell : List Byte) : State :=
  if s.trunk.own.length < queueSize then s.onTrunk fun t => { t with own := t.own ++ [cell] }.arbitrate
  else s.onFlags Flags.raiseReplyDrop

/-! ## Codes of report fields (R188) -/

/-- Clock state codes. -/
def ClockState.code : ClockState → Nat
  | .unset => 0
  | .synced => 1
  | .drifting => 2
  | .held => 3

/-- Standby state codes. -/
def StandbyState.code : StandbyState → Nat
  | .clean => 0
  | .loaded => 1
  | .copying => 2
  | .faulted => 3

/-- Active bank codes. -/
def BankId.code : BankId → Nat
  | .a => 0
  | .b => 1

/-- Device mode codes (R185). -/
def DeviceMode.code : DeviceMode → Nat
  | .run => 0
  | .night => 1
  | .test => 2

/-- Entry status codes (R185). -/
def Status.code : Status → Nat
  | .normal => 0
  | .cancelled => 1
  | .held => 2
  | .arriving => 3

/-- Shown field codes. -/
def TimeField.code : TimeField → Nat
  | .due => 0
  | .minutes _ => 1
  | .clock _ => 2
  | .staleClock _ => 3
  | .cancelled => 4
  | .held => 5
  | .arriving => 6

/-- The field number: m, or x, or 0 where the field carries nothing. -/
def TimeField.number : TimeField → Nat
  | .minutes m => m
  | .clock x | .staleClock x => x
  | .due | .cancelled | .held | .arriving => 0

/-- Panel state codes. -/
def PanelState.code : PanelState → Nat
  | .absent => 0
  | .starting => 1
  | .online => 2
  | .fault => 3

/-- View codes, 255 for none. -/
def viewCode : Option PanelView → Nat
  | some .normal => 0
  | some .emergency => 1
  | some .blank => 2
  | some .test => 3
  | some .fallback => 4
  | none => 255

/-- Pending view command codes. -/
def viewCommandCode : Option ViewCommand → Nat
  | none => 0
  | some .blank => 1
  | some .unblank => 2

/-- Bus state codes; 255 stands for none. -/
def BusState.code : BusState → Nat
  | .idle => 0
  | .sending => 1
  | .awaiting => 2
  | .held => 3

/-- Level codes. -/
def levelCode : Level → Nat
  | .low => 0
  | .high => 1

/-- Contact state codes. -/
def ContactState.code : ContactState → Nat
  | .disabled => 0
  | .settling => 1
  | .watching => 2

/-- Sensor state codes. -/
def SensorState.code : SensorState → Nat
  | .good => 0
  | .failed => 1

/-- Level source codes. -/
def LevelSource.code : LevelSource → Nat
  | .curve => 0
  | .fallback => 1

/-- Contact mode codes (R186). -/
def ContactMode.code : ContactMode → Nat
  | .edge => 0
  | .level => 1

/-- Polarity codes (R186). -/
def Polarity.code : Polarity → Nat
  | .activeLow => 0
  | .activeHigh => 1

/-! ## Report contents (R181, R188) -/

/-- A REPORT cell: kind 60h, the node as source, report kind, item, part, parts, contents, check (R165, R171, R185). -/
def reportCell (node : Fin 128) (kind item part parts : Nat) (contents : List Byte) : List Byte :=
  withCheck (bytes1 0x60 ++ bytes1 node.val ++ bytes1 (4 + contents.length) ++ bytes1 kind ++ bytes1 item ++
    bytes1 part ++ bytes1 parts ++ contents)

/-- The free byte at a place of the report being built (log entry 1). -/
def State.free (s : State) (k : Nat) : Byte := Config.freeByte (s.freeCount + k)

/-- The free bytes of a build used up. -/
def State.useFree (s : State) (n : Nat) : State := { s with freeCount := s.freeCount + n }

/-- The DEVICE report, 23 bytes; the unassigned bits of its flags are free. -/
def deviceContents (s : State) : List Byte :=
  bytes1 s.trunk.node.val ++ bytes1 s.trunk.rateCode.val ++ bytes1 s.mgmt.mode.code ++ bytes1 s.clock.state.code ++
    bytes3 s.clock.value ++ bytes2 s.clock.age ++ bytes1 s.tables.active.code ++ bytes1 s.tables.standby.code ++
    bytes1 (boolCode s.tables.swapPending) ++ bytes1 (boolCode s.trunk.silent) ++ bytes2 s.trunk.silence ++
    [s.free 0, BitVec.ofNat 8 s.mgmt.flags.code ||| (s.free 1 &&& 0xC0)] ++ bytes1 s.mgmt.flags.overflowCode ++
    bytes1 s.trunk.abandoned ++ bytes1 s.trunk.checkFailures ++ bytes1 ((s.mgmt.refusal.map Prod.fst).getD 0) ++
    bytes1 ((s.mgmt.refusal.map fun r => r.2.code).getD 0) ++ bytes1 s.mgmt.refusals

/-- What building a DEVICE report clears: record, count, flags and trunk counts (R179, R176). -/
def clearReported (s : State) : State :=
  { s with
    mgmt := { s.mgmt with refusal := none, refusals := 0, flags := Flags.clear }
    trunk := { s.trunk with abandoned := 0, checkFailures := 0 } }

/-- An optional field: its bytes where present, free bytes where absent (log entry 1). -/
def optionBytes (enc : Nat → List Byte) (absent : List Byte) : Option Nat → List Byte
  | some v => enc v
  | none => absent

/-- The presence byte of an entry: bits 0 to 4 as R185 gives them, the rest free. -/
def presenceByte (e : Entry) (free : Byte) : Byte :=
  BitVec.ofNat 8 (boolCode e.via.isSome + 2 * boolCode e.platform.isSome + 4 * boolCode e.expected.isSome +
    8 * boolCode e.cars.isSome + 16 * boolCode e.lastService) ||| (free &&& 0xE0)

/-- How many free bytes an entry of a BOARD report may read. -/
def entryFree : Nat := 8

/-- An entry of a BOARD report, 24 bytes: the ENTRY body, age, shown field with its number, shown role; `k` is its
place in the report. That the shown role byte takes the colour role codes of R187 (TIME 2, DELAYED 3, CANCELLED 4,
STALE 5) is DEDUCED, log entry 19: R188 lists no codes for it. -/
def entryBytes (s : State) (b : Fin 8) (k : Nat) (e : Entry) : List Byte :=
  let free (j : Nat) := s.free (k * entryFree + j)
  bytes1 b.val ++ bytes2 e.sid ++ [presenceByte e (free 0)] ++ bytes2 e.dest ++
    optionBytes bytes2 [free 1, free 2] e.via ++ optionBytes bytes1 [free 3] e.platform ++ bytes3 e.sched ++
    optionBytes bytes3 [free 4, free 5, free 6] e.expected ++ bytes1 e.status.code ++
    optionBytes bytes1 [free 7] e.cars ++ bytes2 e.age ++ bytes1 e.field.code ++ bytes3 e.field.number ++
    bytes1 e.role.colourRole.index

/-- One part of a BOARD report: its entry count, then its entries, the first of them standing at a position. -/
def boardContents (s : State) (b : Fin 8) (first : Nat) (entries : List Entry) : List Byte :=
  bytes1 entries.length ++ (entries.zipIdx first).flatMap fun e => entryBytes s b e.2 e.1

/-- The most entries one part of a BOARD report holds (R180). -/
def partSize : Nat := 8

/-- The cells of a BOARD report: part 1 of 1, or of more than 8 entries two parts (R180). -/
def boardCells (s : State) (b : Fin 8) : List (List Byte) :=
  let entries := s.boards.get b
  if entries.length ≤ partSize then [reportCell s.trunk.node 1 b.val 1 1 (boardContents s b 0 entries)]
  else
    [reportCell s.trunk.node 1 b.val 1 2 (boardContents s b 0 (entries.take partSize)),
      reportCell s.trunk.node 1 b.val 2 2 (boardContents s b partSize (entries.drop partSize))]

/-- The PANEL report, 8 bytes; an ABSENT panel's applied level is free. -/
def panelContents (s : State) (p : Fin 16) : List Byte :=
  match s.scene.panel p with
  | some row =>
    let r := s.panelRecord p
    bytes1 r.state.code ++ bytes1 (viewCode (s.disp.seq.views.get p)) ++ bytes1 r.failures ++
      bytes1 (viewCommandCode r.viewCommand) ++ bytes1 (boolCode r.palettePending) ++
      bytes1 (s.buses.get row.bus).state.code ++ bytes1 (s.disp.lines.dirty.get p).length ++
      bytes1 (s.light.levelOf row)
  | none => [0, 255, 0, 0, 0, 255, 0, s.free 0]

/-- Present-record counts of a bank, in table-number order (R48, R67). -/
def Bank.counts (b : Bank) : List Nat :=
  [b.fonts.length, b.glyphs.length, b.strings.length, b.palettes.length, b.tiles.length, boolCode b.curve.isSome,
    b.formats.length, b.panels.length, b.zones.length]

/-- One bank's part of the BANK report. -/
def Bank.report (b : Bank) : List Byte := bytes2 b.pool ++ b.counts.flatMap bytes2

/-- The BANK report, 43 bytes. -/
def bankContents (s : State) : List Byte :=
  bytes1 s.tables.active.code ++ bytes1 s.tables.standby.code ++ bytes1 (boolCode s.tables.swapPending) ++
    s.tables.bankA.report ++ s.tables.bankB.report

/-- One contact's part of the INPUTS report. -/
def Contact.report (c : Contact) : List Byte :=
  bytes1 (levelCode c.raw) ++ bytes1 (levelCode c.filtered) ++ bytes1 c.state.code ++ bytes1 (boolCode c.latch.isSome)

/-- One sensor's part of the INPUTS report; smoothed light reads 0 where the sensor is not seeded. -/
def sensorReport (x : Sensor) (g : Group) : List Byte :=
  bytes1 x.state.code ++ bytes1 (boolCode x.seeded) ++ bytes1 x.lastSample ++
    bytes1 (if x.seeded then x.smoothed else 0) ++ bytes1 x.run ++ bytes1 g.level ++ bytes1 g.source.code

/-- The INPUTS report, 44 bytes. -/
def inputsContents (s : State) : List Byte :=
  s.contacts.toList.flatMap Contact.report ++
    (List.finRange 4).flatMap fun n => sensorReport (s.light.sensors.get n) (s.light.groups.get n)

/-- The six values of a contact, in setting-number order. -/
def ContactSettings.values (c : ContactSettings) : List Nat :=
  [boolCode c.enable, c.mode.code, c.polarity.code, c.filter, c.mask.toNat, c.alertString]

/-- The 38 setting values, in setting-number order (R186). -/
def Settings.values (st : Settings) : List Nat :=
  [st.departureHold, st.cancelHold, st.stalePeriod, st.countdownLimit, st.delayThreshold, st.languageDwell,
    st.silenceLimit, st.refreshCycle, st.busRate.a, st.busRate.b, boolCode st.busEnable.a, boolCode st.busEnable.b,
    st.holdLimit, st.fallbackLevel] ++ st.contacts.toList.flatMap ContactSettings.values

/-- The SETTINGS report, 152 bytes. -/
def settingsContents (s : State) : List Byte := s.settings.values.flatMap bytes4

/-! ## Queries (R180) -/

/-- The kind code of QUERY (R169). -/
def queryKind : Nat := 0x50

/-- A one-part report joins the own-reply queue. -/
def answer (kind item : Nat) (contents : List Byte) (s : State) : State :=
  joinOwn s (reportCell s.trunk.node kind item 1 1 contents)

/-- A QUERY for DEVICE: the report, then what its building clears, then the queue (R179). -/
def takeQueryDevice (item : Nat) (s : State) : State :=
  if item = 0 then answer 0 0 (deviceContents s) (clearReported (s.useFree 2)) else s.refuse queryKind .badField

/-- A QUERY for BOARD: its parts join one after the other (R180). -/
def takeQueryBoard (item : Nat) (s : State) : State :=
  match finOf? 8 item with
  | some b => (boardCells s b).foldl joinOwn (s.useFree (boardSize * entryFree))
  | none => s.refuse queryKind .badField

/-- A QUERY for PANEL (R181). -/
def takeQueryPanel (item : Nat) (s : State) : State :=
  match finOf? 16 item with
  | some p => answer 2 item (panelContents s p) (s.useFree 1)
  | none => s.refuse queryKind .badField

/-- A QUERY for BANK (R67). -/
def takeQueryBank (item : Nat) (s : State) : State :=
  if item = 0 then answer 3 0 (bankContents s) s else s.refuse queryKind .badField

/-- A QUERY for INPUTS (R164, R181). -/
def takeQueryInputs (item : Nat) (s : State) : State :=
  if item = 0 then answer 4 0 (inputsContents s) s else s.refuse queryKind .badField

/-- A QUERY for SETTINGS (R181). -/
def takeQuerySettings (item : Nat) (s : State) : State :=
  if item = 0 then answer 5 0 (settingsContents s) s else s.refuse queryKind .badField

/-- The Management Unit takes a QUERY by its report kind (R180). -/
def takeQuery (kind item : Nat) (s : State) : State :=
  match kind with
  | 0 => takeQueryDevice item s
  | 1 => takeQueryBoard item s
  | 2 => takeQueryPanel item s
  | 3 => takeQueryBank item s
  | 4 => takeQueryInputs item s
  | 5 => takeQuerySettings item s
  | _ => s.refuse queryKind .badField

/-! ## The commands -/

/-- QUERY_DEVICE (R179, R181). -/
def execQueryDevice (item : Nat) (s : State) : Host.Outcome State Fault Refusal := .next (takeQueryDevice item s)

/-- QUERY_BOARD (R23, R180). -/
def execQueryBoard (item : Nat) (s : State) : Host.Outcome State Fault Refusal := .next (takeQueryBoard item s)

/-- QUERY_PANEL (R181). -/
def execQueryPanel (item : Nat) (s : State) : Host.Outcome State Fault Refusal := .next (takeQueryPanel item s)

/-- QUERY_BANK (R67, R181). -/
def execQueryBank (item : Nat) (s : State) : Host.Outcome State Fault Refusal := .next (takeQueryBank item s)

/-- QUERY_INPUTS (R164, R181). -/
def execQueryInputs (item : Nat) (s : State) : Host.Outcome State Fault Refusal := .next (takeQueryInputs item s)

/-- QUERY_SETTINGS (R181). -/
def execQuerySettings (item : Nat) (s : State) : Host.Outcome State Fault Refusal := .next (takeQuerySettings item s)

/-- QUERY_UNKNOWN_KIND: a QUERY of an unknown report kind is refused (R180); it is taken by its kind. -/
def execQueryUnknownKind (kind item : Nat) (s : State) : Host.Outcome State Fault Refusal :=
  .next (takeQuery kind item s)

end Sys2Proof.Machine
end

