-- ==== Sys2Proof/Machine/Restart.lean ====
section
/-! DEFINITION. RESTART and the external reset (R182, and the reset rule of each block). -/

namespace Sys2Proof.Machine

/-- The broadcast RESTART cell: 5Fh, 00h, 00h and its check (R175, R185). -/
def restartCell : List Byte := withCheck [0x5F, 0x00, 0x00]

/-- The Table Store after a RESTART (R66). -/
def TableStore.restarted (t : TableStore) : TableStore :=
  { t with
    standby := if t.standby = .copying then .faulted else t.standby
    swapPending := false
    copyTimer := none }

/-- A contact after a RESTART (R117): SETTLING where it is enabled, else DISABLED; its filter is kept. -/
def Contact.restarted (cs : ContactSettings) (c : Contact) : Contact :=
  { c with
    state := if cs.enable then .settling else .disabled
    settlingTimer := if cs.enable then some cs.filter else none
    latch := none }

/-- The buses after either reset, by the clock lines held low (R143). -/
def resetBuses (clockLow : PerBus Bool) : PerBus PanelBus := ⟨PanelBus.reset clockLow.a, PanelBus.reset clockLow.b⟩

/-- The Management Unit takes a RESTART (R182): tables and settings kept, everything else in its reset state, and every
present panel starting afresh; one taken as broadcast is entered in the emptied forward queue (R175). -/
def takeRestart (broadcast : Bool) (s : State) : State :=
  let kept : State :=
    { clock := StationClock.reset
      boards := Vec.fill 8 []
      tables := s.tables.restarted
      slots := Vec.fill 8 Slot.free
      contacts := s.contacts.mapIdx fun n c => c.restarted (s.settings.contacts.get n)
      disp := Display.reset
      buses := resetBuses s.pins.clockLow
      light := LightUnit.reset s.settings.fallbackLevel
      trunk := { TrunkPort.reset s.pins.nodeStraps s.pins.rateStraps with
        forward := if broadcast then [restartCell] else [] }.sendForward
      mgmt := Management.reset s.settings
      pins := s.pins
      freeCount := s.freeCount
      pending := s.pending }
  kept.onDisplay restartDisplay

/-- An external reset (R182): every block in its reset state, the pins as they stand; the straps are read, the filtered
levels take the raw ones, and a bus whose clock line is low is HELD (R117, R143, R165). -/
def takeExternalReset (s : State) : State :=
  { State.reset with
    contacts := s.contacts.mapIdx fun _ c => Contact.reset c.raw
    buses := resetBuses s.pins.clockLow
    trunk := TrunkPort.reset s.pins.nodeStraps s.pins.rateStraps
    pins := s.pins
    freeCount := s.freeCount
    pending := s.pending }

/-! ## The commands -/

/-- RESTART (R182). -/
def execRestart (broadcast : Bool) (s : State) : Host.Outcome State Fault Refusal := .next (takeRestart broadcast s)

/-- EXTERNAL_RESET (R182). -/
def execExternalReset (s : State) : Host.Outcome State Fault Refusal := .next (takeExternalReset s)

end Sys2Proof.Machine
end

