-- ==== Sys2Proof/Machine/Trunk.lean ====
section
/-! DEFINITION. The Trunk Port (chapter 10): receiving and judging cells, taking and forwarding them, the queues, and
the silence timer. -/

namespace Sys2Proof.Machine

/-! ## Handing a taken cell to its owner (R169) -/

/-- Whether a length is permitted for a kind, or `none` for a kind the Trunk Port does not know (R169, R185). -/
def lengthPermitted? (kind length : Nat) : Option Bool :=
  match kind with
  | 0x10 => some (decide (length = 17))
  | 0x11 => some (decide (length = 3))
  | 0x12 => some (decide (length = 1))
  | 0x18 => some (decide (length = 3))
  | 0x20 => some (decide (8 ≤ length))
  | 0x21 => some (decide (length = 1))
  | 0x40 => some (decide (3 ≤ length))
  | 0x41 | 0x42 | 0x43 | 0x5F => some (decide (length = 0))
  | 0x48 => some (decide (length = 5))
  | 0x49 | 0x4A => some (decide (length = 1))
  | 0x50 => some (decide (length = 2))
  | _ => none

/-- A cell of known kind and permitted length is handed to its owner (R169). -/
def handToOwner (kind : Nat) (broadcast : Bool) (body : List Byte) (s : State) : State :=
  match kind with
  | 0x10 => takeEntry (entryOfBody body) s
  | 0x11 => takeWithdraw (byteAt body 0) (wordAt body 1) s
  | 0x12 => takeClearBoard (byteAt body 0) s
  | 0x18 => takeTime (tripleAt body 0) s
  | 0x20 => takeMessage (messageOfBody body) s
  | 0x21 => takeMessageEnd (byteAt body 0) s
  | 0x40 => takeTableLoad (byteAt body 0) (wordAt body 1) (body.drop 3) s
  | 0x41 => takeBankCopy s
  | 0x42 => takeBankClear s
  | 0x43 => takeBankSwap s
  | 0x48 => takeSet (byteAt body 0) (quadAt body 1) s
  | 0x49 => takeMode (byteAt body 0) s
  | 0x4A => takeAckAlert (byteAt body 0) s
  | 0x50 => takeQuery (byteAt body 0) (byteAt body 1) s
  | 0x5F => takeRestart broadcast s
  | _ => s

/-- A taken cell is judged by its kind and length, and handed to its owner where it passes (R169). -/
def takeCell (cell : List Byte) (s : State) : State :=
  let kind := byteAt cell 0
  let body := (cell.drop 3).dropLast
  match lengthPermitted? kind body.length with
  | none => s.refuse kind .badKind
  | some false => s.refuse kind .badLength
  | some true => handToOwner kind (decide (byteAt cell 1 = 0)) body s

/-! ## A cell completes (R167, R168, R170, R171) -/

/-- The silence timer and SILENT set (R173). -/
def TrunkPort.setSilence (n : Nat) (silent : Bool) (t : TrunkPort) : TrunkPort := { t with silence := n, silent := silent }

/-- A good cell on TRUNK_IN restarts the silence timer and clears SILENT; a change is handed on (R168, R173). -/
def hearGood (s : State) : State :=
  let heard := s.onTrunk (TrunkPort.setSilence 0 false)
  if s.trunk.silent then heard.onDisplay rechooseViews else heard

/-- A cell joins the forward queue, and starts at once where that was empty, or is dropped with FWD_DROP (R170). -/
def forwardCell (cell : List Byte) (s : State) : State :=
  if s.trunk.forward.length < queueSize then s.onTrunk fun t => { t with forward := t.forward ++ [cell] }.sendForward
  else s.onFlags Flags.raiseFwdDrop

/-- Whether a destination is taken by a coder at a node address (R168). -/
def takesDestination (node : Fin 128) (destination : Nat) : Bool :=
  decide (destination = 0 ∨ (destination = node.val ∧ node.val ≠ 0))

/-- Whether a destination is forwarded (R168). -/
def forwardsDestination (node : Fin 128) (destination : Nat) : Bool :=
  decide (destination = 0) || !takesDestination node destination

/-- A check failure counted (R167). -/
def countCheckFailure (s : State) : State :=
  s.onTrunk fun t => { t with checkFailures := saturate 255 t.checkFailures }

/-- A completed cell on TRUNK_IN is judged and, where good, forwarded and taken by its destination (R167, R168). A
broadcast cell is forwarded before it is taken: DESIGN CHOICE, log entry 27, which shows only where a broadcast QUERY for
DEVICE meets a full forward queue. -/
def judgeTrunk (cell : List Byte) (s : State) : State :=
  if sumBytes cell ≠ 0 then countCheckFailure s
  else
    let heard := hearGood s
    let destination := byteAt cell 1
    let passed := if forwardsDestination s.trunk.node destination then forwardCell cell heard else heard
    if takesDestination s.trunk.node destination then takeCell cell passed else passed

/-- A completed cell on RETURN_IN is judged and, where good, joins the relay queue or is dropped with RELAY_DROP (R167,
R171). -/
def judgeReturn (cell : List Byte) (s : State) : State :=
  if sumBytes cell ≠ 0 then countCheckFailure s
  else if s.trunk.relay.length < queueSize then
    s.onTrunk fun t => { t with relay := t.relay ++ [cell] }.arbitrate
  else s.onFlags Flags.raiseRelayDrop

/-! ## Receivers (R166) -/

/-- A lane's receiver. -/
def TrunkPort.receiver (t : TrunkPort) : Lane → Receiver
  | .trunkIn => t.rxTrunk
  | .returnIn => t.rxReturn

/-- A lane's receiver set. -/
def TrunkPort.setReceiver (t : TrunkPort) (lane : Lane) (rx : Receiver) : TrunkPort :=
  match lane with
  | .trunkIn => { t with rxTrunk := rx }
  | .returnIn => { t with rxReturn := rx }

/-- An abandonment counted, and the receiver left in a state (R166). -/
def abandonCell (lane : Lane) (rx : Receiver) (s : State) : State :=
  s.onTrunk fun t => { t.setReceiver lane rx with abandoned := saturate 255 t.abandoned }

/-- A completed cell: the receiver returns to HUNT, and the cell is judged whole (R167). -/
def completeCell (lane : Lane) (cell : List Byte) (s : State) : State :=
  let hunting := s.onTrunk fun t => t.setReceiver lane .hunt
  match lane with
  | .trunkIn => judgeTrunk cell hunting
  | .returnIn => judgeReturn cell hunting

/-- Whether collected characters are a whole cell: the check is character length + 4 (R166). -/
def isWhole (chars : List Byte) : Bool := decide (3 < chars.length ∧ chars.length = byteAt chars 2 + 4)

/-- The greatest length of a body (R165, R166). -/
def maxLength : Nat := 250

/-- What a receiver does with a character (R166). -/
inductive CharAction where
  | ignore
  | keep (rx : Receiver)
  | abandon (rx : Receiver)
  | complete (cell : List Byte)
deriving DecidableEq, Repr

/-- The action of a receiver at a character (R166). -/
def charAction (rx : Receiver) (ch : LineChar) : CharAction :=
  match rx with
  | .hunt => if ch.marker = true ∧ ch.goodStop = true then .keep (.collect [ch.data]) else .ignore
  | .collect chars =>
    if ch.goodStop = false then .abandon .hunt
    else if ch.marker then .abandon (.collect [ch.data])
    else if chars.length = 2 ∧ maxLength < ch.data.toNat then .abandon .hunt
    else if isWhole (chars ++ [ch.data]) then .complete (chars ++ [ch.data])
    else .keep (.collect (chars ++ [ch.data]))

/-- A character arrives on a lane (R166). -/
def arriveChar (lane : Lane) (ch : LineChar) (s : State) : State :=
  match charAction (s.trunk.receiver lane) ch with
  | .ignore => s
  | .keep rx => s.onTrunk fun t => t.setReceiver lane rx
  | .abandon rx => abandonCell lane rx s
  | .complete cell => completeCell lane cell s

/-- Whether a receiver has begun the cell: it holds the cell's first characters, and not the last. -/
def Receiver.within (cell : List Byte) : Receiver → Bool
  | .hunt => true
  | .collect chars => decide (chars.length < cell.length ∧ cell.take chars.length = chars)

/-- A whole cell arrives on a lane: a receiver that holds its first characters goes on with them, and any other partial
cell is abandoned by the cell's marker (R166). What is not a whole cell completes nothing. -/
def arriveCell (lane : Lane) (cell : List Byte) (s : State) : State :=
  if cellShape cell then
    completeCell lane cell
      (if (s.trunk.receiver lane).within cell then s else abandonCell lane .hunt s)
  else s

/-! ## Silence (R173) -/

/-- Whether the next second of the silence timer sets SILENT (R173). -/
def silenceDue (limit : Nat) (t : TrunkPort) : Bool :=
  decide (limit ≠ 0 ∧ t.silent = false ∧ limit ≤ saturate 65535 t.silence)

/-- The silence timer takes its second, and SILENT is set at the limit and handed on (R119, R173). -/
def tickSilence (s : State) : State :=
  if silenceDue s.settings.silenceLimit s.trunk then
    (s.onTrunk (TrunkPort.setSilence (saturate 65535 s.trunk.silence) true)).onDisplay rechooseViews
  else s.onTrunk (TrunkPort.setSilence (saturate 65535 s.trunk.silence) s.trunk.silent)

/-! ## The commands -/

/-- CELL_ABANDONED: the character arrives that makes a receiver in COLLECT abandon its cell (R166); a character that
would not do so abandons nothing. -/
def execCellAbandoned (lane : Lane) (char : LineChar) (s : State) : Host.Outcome State Fault Refusal :=
  .next (match charAction (s.trunk.receiver lane) char with
    | .abandon rx => abandonCell lane rx s
    | .ignore | .keep _ | .complete _ => s)

/-- TRUNK_CELL: a cell completes on TRUNK_IN (R167 to R170). -/
def execTrunkCell (cell : List Byte) (s : State) : Host.Outcome State Fault Refusal := .next (arriveCell .trunkIn cell s)

/-- RETURN_CELL: a cell completes on RETURN_IN (R167, R171, R172). -/
def execReturnCell (cell : List Byte) (s : State) : Host.Outcome State Fault Refusal :=
  .next (arriveCell .returnIn cell s)

/-- TRUNK_OUT_CELL_SENT: the head of the forward queue leaves it, and the next cell starts (R170); an empty queue sends
nothing. -/
def execTrunkOutCellSent (s : State) : Host.Outcome State Fault Refusal :=
  .next (s.onTrunk fun t => { t with forward := t.forward.tail }.sendForward)

/-- RETURN_OUT_CELL_SENT: the cell being sent leaves its queue, and the arbiter starts the next (R172); an idle
RETURN_OUT sends nothing. -/
def execReturnOutCellSent (s : State) : Host.Outcome State Fault Refusal :=
  .next (s.onTrunk fun t =>
    match t.sending with
    | none => t
    | some .relay => { t with relay := t.relay.tail, sending := none }.arbitrate
    | some .own => { t with own := t.own.tail, sending := none }.arbitrate)

/-- SILENT: the silence timer takes the second at which it reaches the silence limit (R173); where the next second would
not set SILENT, nothing happens (log entry 4). -/
def execSilent (s : State) : Host.Outcome State Fault Refusal :=
  .next (if silenceDue s.settings.silenceLimit s.trunk then tickSilence s else s)

/-- CHARACTER_ARRIVAL: a character arrives on a lane (R166). -/
def execCharacterArrival (lane : Lane) (char : LineChar) (s : State) : Host.Outcome State Fault Refusal :=
  .next (arriveChar lane char s)

end Sys2Proof.Machine
end

