-- ==== Sys2Proof/Machine/Second.lean ====
section
/-! DEFINITION. The timebase second (chapter 00: the clock, the entry ages, the message durations, the dwells, the
language phase, the silence timer, a pending bank swap, the refresh cursors and the probe timers each follow it, in that
order, log entry 3), and the events that come about within it. -/

namespace Sys2Proof.Machine

/-- The Table Store with its banks exchanged (R63). -/
def TableStore.swapped (t : TableStore) : TableStore :=
  { t with active := t.active.other, standby := .clean, swapPending := false }

/-- A pending swap is applied (R63): the banks exchange, the display starts afresh (R105, R126, R143), the frames are
judged against the new bank (R154), and the four group levels are set from the new curve (R160, R161). -/
def applySwap (s : State) : State :=
  let tables := s.tables.swapped
  let bank := tables.activeBank
  State.onDisplay { s with
      tables := tables
      buses := ⟨s.buses.a.swapTo bank .busA, s.buses.b.swapTo bank .busB⟩
      light := s.light.remap bank.curve s.settings.fallbackLevel }
    restartDisplay

/-- The Table Store takes a timebase second (R63). -/
def tickSwap (s : State) : State := if s.tables.swapPending then applySwap s else s

/-- Every slot's remaining duration takes its second, in slot order (R109). -/
def tickSlots (s : State) : State := (List.finRange 8).foldl (fun s i => tickSlot i s) s

/-- The timebase second, taken whole by every block. -/
def takeSecond (s : State) : State :=
  let timed := tickSlots (growAges (tickClock s))
  let sequenced := (timed.onDisplay tickDwells).onDisplay (tickLanguage timed.settings.languageDwell)
  let switched := tickSwap (tickSilence sequenced)
  (switched.onDisplay (refreshPanels switched.settings.refreshCycle)).onDisplay fun _ d => tickProbes d

/-! ## The commands -/

/-- TIMEBASE_SECOND: the second, in every block. -/
def execTimebaseSecond (s : State) : Host.Outcome State Fault Refusal := .next (takeSecond s)

/-- SWAP_APPLIED: a pending swap is applied (R63); with none pending, nothing happens. -/
def execSwapApplied (s : State) : Host.Outcome State Fault Refusal := .next (tickSwap s)

/-- LANGUAGE_FLIP: the language count takes the second that brings it to the language dwell (R104); where the next
second would not flip the phase, nothing happens (log entry 4). -/
def execLanguageFlip (s : State) : Host.Outcome State Fault Refusal :=
  .next (if flipDue s.settings.languageDwell s.disp then s.onDisplay (tickLanguage s.settings.languageDwell) else s)

/-- Whether the next second of a zone's dwell counter expires it (R91). -/
def dwellDue (d : Display) (z : Fin 192) : Bool :=
  match d.seq.runtimes.find z.val with
  | some (.page _ _ n) | some (.tile _ n) => decide (n ≤ 1)
  | _ => false

/-- PAGE_TURN: the dwell counter of a paged ROWS zone takes its last second and the zone turns (R92); a counter with
more to run, or a zone of another kind, takes nothing (log entry 4). -/
def execPageTurn (zone : Fin 192) (s : State) : Host.Outcome State Fault Refusal :=
  .next (if dwellDue s.disp zone then s.onDisplay (turnPage zone.val) else s)

/-- TILE_STEP: the dwell counter of a stepping TILE zone takes its last second and the zone steps (R102); a counter with
more to run, or a zone of another kind, takes nothing (log entry 4). -/
def execTileStep (zone : Fin 192) (s : State) : Host.Outcome State Fault Refusal :=
  .next (if dwellDue s.disp zone then s.onDisplay (stepTile zone.val) else s)

/-- Whether the next second of a held text's dwell expires it (R96). -/
def MessageRuntime.dwellDue (rt : MessageRuntime) : Bool :=
  match rt.dwell with
  | some n => decide (n ≤ 1)
  | none => false

/-- MESSAGE_DWELL_EXPIRY: the dwell of a held text takes its last second and the zone moves on (R96, R98); a dwell with
more to run, or none running, takes nothing (log entry 4). -/
def execMessageDwellExpiry (zone : MsgZone) (s : State) : Host.Outcome State Fault Refusal :=
  .next (match s.disp.messageRuntime? zone with
    | some rt => if rt.dwellDue then s.onDisplay (onMessage zone MessagePlace.tick) else s
    | none => s)

/-- SCROLL_STEP: the step timer of a scrolling text expires (R95); a timer that does not run has no effect (R91). -/
def execScrollStep (zone : MsgZone) (s : State) : Host.Outcome State Fault Refusal :=
  .next (s.onDisplay (onMessage zone MessagePlace.step))

end Sys2Proof.Machine
end

