-- ==== Sys2Proof/Machine/Dispatch.lean ====
section
/-! DEFINITION. The dispatch of commands to their meanings, one arm per command. -/

namespace Sys2Proof.Machine

def exec (i : Instr) (s : State) : Host.Outcome State Fault Refusal :=
  match i with
  | .entry body => Sys2Proof.Machine.execEntry body s
  | .withdraw board sid => Sys2Proof.Machine.execWithdraw board sid s
  | .clearBoard board => Sys2Proof.Machine.execClearBoard board s
  | .time second => Sys2Proof.Machine.execTime second s
  | .minutePulse => Sys2Proof.Machine.execMinutePulse s
  | .timebaseSecond => Sys2Proof.Machine.execTimebaseSecond s
  | .stalePeriodPassed board sid => Sys2Proof.Machine.execStalePeriodPassed board sid s
  | .clockDrifting => Sys2Proof.Machine.execClockDrifting s
  | .silent => Sys2Proof.Machine.execSilent s
  | .languageFlip => Sys2Proof.Machine.execLanguageFlip s
  | .swapApplied => Sys2Proof.Machine.execSwapApplied s
  | .messageDurationExpiry slot => Sys2Proof.Machine.execMessageDurationExpiry slot s
  | .pageTurn zone => Sys2Proof.Machine.execPageTurn zone s
  | .messageDwellExpiry zone => Sys2Proof.Machine.execMessageDwellExpiry zone s
  | .tileStep zone => Sys2Proof.Machine.execTileStep zone s
  | .scrollStep zone => Sys2Proof.Machine.execScrollStep zone s
  | .message body => Sys2Proof.Machine.execMessage body s
  | .messageEnd slot => Sys2Proof.Machine.execMessageEnd slot s
  | .contactChange contact level => Sys2Proof.Machine.execContactChange contact level s
  | .filterExpiry contact => Sys2Proof.Machine.execFilterExpiry contact s
  | .settlingExpiry contact => Sys2Proof.Machine.execSettlingExpiry contact s
  | .ackAlert contact => Sys2Proof.Machine.execAckAlert contact s
  | .mode value => Sys2Proof.Machine.execMode value s
  | .tableLoad table index record => Sys2Proof.Machine.execTableLoad table index record s
  | .bankCopy => Sys2Proof.Machine.execBankCopy s
  | .bankCopyComplete => Sys2Proof.Machine.execBankCopyComplete s
  | .bankClear => Sys2Proof.Machine.execBankClear s
  | .bankSwap => Sys2Proof.Machine.execBankSwap s
  | .setDepartureHold value => Sys2Proof.Machine.execSetDepartureHold value s
  | .setCancelHold value => Sys2Proof.Machine.execSetCancelHold value s
  | .setStalePeriod value => Sys2Proof.Machine.execSetStalePeriod value s
  | .setCountdownLimit value => Sys2Proof.Machine.execSetCountdownLimit value s
  | .setDelayThreshold value => Sys2Proof.Machine.execSetDelayThreshold value s
  | .setLanguageDwell value => Sys2Proof.Machine.execSetLanguageDwell value s
  | .setSilenceLimit value => Sys2Proof.Machine.execSetSilenceLimit value s
  | .setRefreshCycle value => Sys2Proof.Machine.execSetRefreshCycle value s
  | .setBusRate bus value => Sys2Proof.Machine.execSetBusRate bus value s
  | .setBusEnable bus value => Sys2Proof.Machine.execSetBusEnable bus value s
  | .setHoldLimit value => Sys2Proof.Machine.execSetHoldLimit value s
  | .setSensorFallbackLevel value => Sys2Proof.Machine.execSetSensorFallbackLevel value s
  | .setContactEnable contact value => Sys2Proof.Machine.execSetContactEnable contact value s
  | .setContactMode contact value => Sys2Proof.Machine.execSetContactMode contact value s
  | .setContactPolarity contact value => Sys2Proof.Machine.execSetContactPolarity contact value s
  | .setContactFilter contact value => Sys2Proof.Machine.execSetContactFilter contact value s
  | .setContactPanelMask contact value => Sys2Proof.Machine.execSetContactPanelMask contact value s
  | .setContactAlertString contact value => Sys2Proof.Machine.execSetContactAlertString contact value s
  | .setUnknownSetting number value => Sys2Proof.Machine.execSetUnknownSetting number value s
  | .queryDevice item => Sys2Proof.Machine.execQueryDevice item s
  | .queryBoard item => Sys2Proof.Machine.execQueryBoard item s
  | .queryPanel item => Sys2Proof.Machine.execQueryPanel item s
  | .queryBank item => Sys2Proof.Machine.execQueryBank item s
  | .queryInputs item => Sys2Proof.Machine.execQueryInputs item s
  | .querySettings item => Sys2Proof.Machine.execQuerySettings item s
  | .restart broadcast => Sys2Proof.Machine.execRestart broadcast s
  | .externalReset => Sys2Proof.Machine.execExternalReset s
  | .cellAbandoned lane char => Sys2Proof.Machine.execCellAbandoned lane char s
  | .trunkCell cell => Sys2Proof.Machine.execTrunkCell cell s
  | .returnCell cell => Sys2Proof.Machine.execReturnCell cell s
  | .trunkOutCellSent => Sys2Proof.Machine.execTrunkOutCellSent s
  | .returnOutCellSent => Sys2Proof.Machine.execReturnOutCellSent s
  | .lightSample s0 s1 s2 s3 => Sys2Proof.Machine.execLightSample s0 s1 s2 s3 s
  | .sensorFailed sensor => Sys2Proof.Machine.execSensorFailed sensor s
  | .sensorRestored sensor sample => Sys2Proof.Machine.execSensorRestored sensor sample s
  | .frameChoice bus => Sys2Proof.Machine.execFrameChoice bus s
  | .frameSent bus => Sys2Proof.Machine.execFrameSent bus s
  | .panelAnswer bus data marker => Sys2Proof.Machine.execPanelAnswer bus data marker s
  | .panelFault panel => Sys2Proof.Machine.execPanelFault panel s
  | .answerTimeout bus => Sys2Proof.Machine.execAnswerTimeout bus s
  | .clockLineLow bus => Sys2Proof.Machine.execClockLineLow bus s
  | .clockLineRelease bus => Sys2Proof.Machine.execClockLineRelease bus s
  | .holdTimeout bus => Sys2Proof.Machine.execHoldTimeout bus s
  | .classGapExpiry panel => Sys2Proof.Machine.execClassGapExpiry panel s
  | .probeDue panel => Sys2Proof.Machine.execProbeDue panel s
  | .characterArrival lane char => Sys2Proof.Machine.execCharacterArrival lane char s
  | .queryUnknownKind kind item => Sys2Proof.Machine.execQueryUnknownKind kind item s

end Sys2Proof.Machine
end

