-- ==== Sys2Proof/Safety.lean ====
section
/-! DEFINITION. What a frame leaves unchanged, and what a safe state is: block by block, the ranges and relations the
manual states for the state it gives the coder. -/

namespace Sys2Proof.Machine

/-! ## Frames -/

/-- The parts of the state that a frame names; together they are the whole state. -/
inductive Part where
  | clock | boards | tables | slots | contacts
  | phase | runtimes | views | synthetic | dirty | cursors | panels
  | bus (b : Bus)
  | sensors | groups
  | receiver (lane : Lane)
  | forward | returnLane | silence | trunkCounts | straps
  | settings | mode | flags | refusal
  | pins | freeCount | pending
deriving DecidableEq, Repr

/-- A part is the same in two states. -/
def State.agrees (s t : State) : Part → Prop
  | .clock => t.clock = s.clock
  | .boards => t.boards = s.boards
  | .tables => t.tables = s.tables
  | .slots => t.slots = s.slots
  | .contacts => t.contacts = s.contacts
  | .phase => t.disp.seq.phase = s.disp.seq.phase ∧ t.disp.seq.langCount = s.disp.seq.langCount
  | .runtimes => t.disp.seq.runtimes = s.disp.seq.runtimes
  | .views => t.disp.seq.views = s.disp.seq.views
  | .synthetic => t.disp.seq.synthetic = s.disp.seq.synthetic
  | .dirty => t.disp.lines.dirty = s.disp.lines.dirty
  | .cursors => t.disp.lines.cursor = s.disp.lines.cursor
  | .panels => t.disp.panels = s.disp.panels
  | .bus b => t.buses.get b = s.buses.get b
  | .sensors => t.light.sensors = s.light.sensors
  | .groups => t.light.groups = s.light.groups
  | .receiver lane => t.trunk.receiver lane = s.trunk.receiver lane
  | .forward => t.trunk.forward = s.trunk.forward ∧ t.trunk.trunkOut = s.trunk.trunkOut
  | .returnLane =>
    t.trunk.relay = s.trunk.relay ∧ t.trunk.own = s.trunk.own ∧ t.trunk.sending = s.trunk.sending ∧
      t.trunk.lastServed = s.trunk.lastServed ∧ t.trunk.returnOut = s.trunk.returnOut
  | .silence => t.trunk.silence = s.trunk.silence ∧ t.trunk.silent = s.trunk.silent
  | .trunkCounts => t.trunk.abandoned = s.trunk.abandoned ∧ t.trunk.checkFailures = s.trunk.checkFailures
  | .straps => t.trunk.node = s.trunk.node ∧ t.trunk.rateCode = s.trunk.rateCode
  | .settings => t.mgmt.settings = s.mgmt.settings
  | .mode => t.mgmt.mode = s.mgmt.mode
  | .flags => t.mgmt.flags = s.mgmt.flags
  | .refusal => t.mgmt.refusal = s.mgmt.refusal ∧ t.mgmt.refusals = s.mgmt.refusals
  | .pins => t.pins = s.pins
  | .freeCount => t.freeCount = s.freeCount
  | .pending => t.pending = s.pending

/-- Every part but those listed is unchanged from s to t. -/
def OnlyChanges (changed : List Part) (s t : State) : Prop := ∀ part : Part, part ∉ changed → s.agrees t part

/-- A refusal is recorded and counted, and nothing else happens (R179). -/
def RefusedOnly (kind : Nat) (reason : Reason) (s t : State) : Prop :=
  t.mgmt.refusal = some (kind, reason) ∧ t.mgmt.refusals = min 255 (s.mgmt.refusals + 1) ∧ OnlyChanges [.refusal] s t

/-- The parts a board change notice reaches: dirty lines, and the rows of paged zones (R86, R87, R93). -/
def noticeParts : List Part := [.dirty, .runtimes]

/-- The parts that choosing views again reaches (R120, R121). -/
def viewParts : List Part := [.views, .synthetic, .runtimes, .dirty, .panels]

/-- The parts a change of boards reaches. -/
def boardParts : List Part := .boards :: noticeParts

/-- The parts a clock change reaches. -/
def clockParts : List Part := .clock :: boardParts

/-- The parts an alert reaches. -/
def alertParts : List Part := .contacts :: .slots :: viewParts

/-- The parts a cell taken on TRUNK_IN can reach: all but the pins and the queue of commands. -/
def takenParts : List Part :=
  [.clock, .boards, .tables, .slots, .contacts, .phase, .runtimes, .views, .synthetic, .dirty, .cursors, .panels,
    .bus .busA, .bus .busB, .sensors, .groups, .receiver .trunkIn, .receiver .returnIn, .forward, .returnLane, .silence,
    .trunkCounts, .straps, .settings, .mode, .flags, .refusal, .freeCount]

/-- The parts a cell heard on RETURN_IN reaches (R166, R167, R171). -/
def relayedParts : List Part := [.receiver .returnIn, .trunkCounts, .returnLane, .flags]

/-- The parts a character, or a whole cell, reaches by the lane it is heard on (R166). -/
def laneParts : Lane → List Part
  | .trunkIn => takenParts
  | .returnIn => relayedParts

/-- The parts a frame's outcome on a bus reaches (R148 to R151). -/
def outcomeParts (b : Bus) : List Part := [.dirty, .cursors, .panels, .bus b]

/-- The parts the manual lets each command change: its frame is that every other part stays. -/
def reach : Instr → List Part
  | .entry _ => boardParts ++ [.flags, .refusal]
  | .withdraw _ _ | .clearBoard _ => boardParts ++ [.refusal]
  | .time _ => clockParts ++ [.flags, .refusal]
  | .minutePulse => clockParts ++ [.flags]
  | .timebaseSecond =>
    clockParts ++ viewParts ++ [.tables, .slots, .phase, .cursors, .bus .busA, .bus .busB, .groups, .silence]
  | .stalePeriodPassed _ _ => boardParts
  | .clockDrifting => clockParts
  | .silent => .silence :: viewParts
  | .languageFlip => [.phase, .dirty]
  | .swapApplied => viewParts ++ [.tables, .cursors, .bus .busA, .bus .busB, .groups]
  | .messageDurationExpiry _ => .slots :: viewParts
  | .pageTurn _ | .tileStep _ => noticeParts
  | .messageDwellExpiry _ | .scrollStep _ => [.runtimes, .synthetic, .dirty]
  | .message _ | .messageEnd _ => .refusal :: .slots :: viewParts
  | .contactChange _ _ => [.contacts]
  | .filterExpiry _ | .settlingExpiry _ => alertParts
  | .ackAlert _ => .refusal :: alertParts
  | .mode _ => .refusal :: .mode :: viewParts
  | .tableLoad _ _ _ | .bankCopy | .bankClear | .bankSwap => [.tables, .refusal]
  | .bankCopyComplete => [.tables]
  | .setDepartureHold _ | .setCancelHold _ | .setLanguageDwell _ | .setSilenceLimit _ | .setRefreshCycle _
  | .setBusRate _ _ | .setHoldLimit _ | .setContactFilter _ _ | .setContactAlertString _ _ => [.settings, .flags]
  | .setStalePeriod _ | .setCountdownLimit _ | .setDelayThreshold _ => [.settings, .flags] ++ boardParts
  | .setBusEnable b _ => [.settings, .flags, .dirty, .panels, .bus b]
  | .setSensorFallbackLevel _ => [.settings, .flags, .groups, .panels]
  | .setContactEnable _ _ | .setContactMode _ _ | .setContactPolarity _ _ => [.settings, .flags] ++ alertParts
  | .setContactPanelMask _ _ => [.settings]
  | .setUnknownSetting _ _ | .queryUnknownKind _ _ => [.refusal]
  | .queryDevice _ => [.returnLane, .flags, .refusal, .trunkCounts, .freeCount]
  | .queryBoard _ | .queryPanel _ => [.returnLane, .flags, .refusal, .freeCount]
  | .queryBank _ | .queryInputs _ | .querySettings _ => [.returnLane, .flags, .refusal]
  | .restart _ =>
    [.clock, .boards, .tables, .slots, .contacts, .phase, .runtimes, .views, .synthetic, .dirty, .cursors, .panels,
      .bus .busA, .bus .busB, .sensors, .groups, .receiver .trunkIn, .receiver .returnIn, .forward, .returnLane,
      .silence, .trunkCounts, .straps, .mode, .flags, .refusal]
  | .externalReset =>
    [.clock, .boards, .tables, .slots, .contacts, .phase, .runtimes, .views, .synthetic, .dirty, .cursors, .panels,
      .bus .busA, .bus .busB, .sensors, .groups, .receiver .trunkIn, .receiver .returnIn, .forward, .returnLane,
      .silence, .trunkCounts, .straps, .settings, .mode, .flags, .refusal]
  | .cellAbandoned lane _ => [.receiver lane, .trunkCounts]
  | .trunkCell _ => takenParts
  | .returnCell _ => relayedParts
  | .trunkOutCellSent => [.forward]
  | .returnOutCellSent => [.returnLane]
  | .lightSample _ _ _ _ | .sensorFailed _ | .sensorRestored _ _ => [.sensors, .groups, .panels]
  | .frameChoice b => [.dirty, .panels, .bus b]
  | .frameSent b => [.bus b]
  | .panelAnswer b _ _ | .answerTimeout b | .holdTimeout b => outcomeParts b
  | .panelFault _ => [.dirty, .cursors, .panels, .bus .busA, .bus .busB]
  | .clockLineLow b => .pins :: outcomeParts b
  | .clockLineRelease b => [.bus b, .pins, .dirty, .panels]
  | .classGapExpiry _ | .probeDue _ => [.panels]
  | .characterArrival lane _ => laneParts lane

/-! ## Station Clock -/

/-- The clock in its ranges: value and age, 0 while UNSET, the end of the day while HELD (R26). -/
def StationClock.Ok (c : StationClock) : Prop :=
  c.value ≤ lastSecond ∧ c.age ≤ 65535 ∧ (c.state = .unset → c.value = 0) ∧ (c.state = .held → c.value = lastSecond)

/-! ## Board Engine -/

/-- An optional field in its range. -/
def OptionIn (lo hi : Nat) (o : Option Nat) : Prop := ∀ v, o = some v → lo ≤ v ∧ v ≤ hi

/-- An entry's posted fields and age in the ranges of R2. -/
def Entry.Ok (e : Entry) : Prop :=
  1 ≤ e.sid ∧ e.sid ≤ 65535 ∧ e.dest ≤ 1023 ∧ OptionIn 0 1023 e.via ∧ OptionIn 1 32 e.platform ∧
    e.sched ≤ lastSecond ∧ OptionIn 0 lastSecond e.expected ∧ OptionIn 1 12 e.cars ∧ e.age ≤ 65535

/-- A board in order: at most 16 entries, ids unique, ascending by key and id (R1, R4), fields in range (R2). -/
def BoardOk (entries : List Entry) : Prop :=
  entries.length ≤ boardSize ∧ (entries.map Entry.sid).Nodup ∧ (entries.Pairwise fun a b => a.before b = true) ∧
    ∀ e ∈ entries, e.Ok

/-- Every board in order. -/
def BoardsOk (s : State) : Prop := ∀ b : Fin 8, BoardOk (s.boards.get b)

/-! ## Settings -/

/-- A value in a plain range. -/
def InRange (lo hi v : Nat) : Prop := lo ≤ v ∧ v ≤ hi

/-- A value that is 0 for off, or in a working span. -/
def OffOrIn (lo hi v : Nat) : Prop := v = 0 ∨ InRange lo hi v

/-- One of the three bus rates. -/
def IsRate (v : Nat) : Prop := v = 250000 ∨ v = 500000 ∨ v = 1000000

/-- A contact's settings in their ranges (R177). -/
def ContactSettings.Ok (c : ContactSettings) : Prop := InRange 10 2550 c.filter ∧ c.filter % 10 = 0 ∧ c.alertString ≤ 1023

/-- Every setting in its range (R177). -/
def Settings.Ok (st : Settings) : Prop :=
  st.departureHold ≤ 600 ∧ st.cancelHold ≤ 1800 ∧ OffOrIn 30 3600 st.stalePeriod ∧ InRange 1 99 st.countdownLimit ∧
    st.delayThreshold ≤ 3600 ∧ InRange 2 30 st.languageDwell ∧ OffOrIn 10 600 st.silenceLimit ∧
    OffOrIn 5 255 st.refreshCycle ∧ (∀ b, IsRate (st.busRate.get b)) ∧ InRange 5 255 st.holdLimit ∧
    st.fallbackLevel ≤ 255 ∧ ∀ n, (st.contacts.get n).Ok

/-! ## Table Store -/

/-- A font record in the ranges of R51. -/
def Font.Ok (f : Font) : Prop := InRange 5 24 f.height ∧ f.spacing ≤ 3 ∧ f.digitBase ≤ 501

/-- A glyph record as R52 takes it: a width of 1 to 16, the rows of a font's height, each of ⌈width ÷ 8⌉ bytes. -/
def Glyph.Ok (g : Glyph) : Prop :=
  InRange 1 16 g.width ∧ InRange 5 24 g.rowCount ∧ g.rows.length = g.rowCount * ((g.width + 7) / 8)

/-- A variant of a string in the ranges of R53. -/
def VariantOk (codes : List Nat) : Prop := codes.length ≤ 48 ∧ ∀ c ∈ codes, c ≤ 511

/-- A string record in the ranges of R53. -/
def Str.Ok (s : Str) : Prop := VariantOk s.primary ∧ ∀ codes, s.secondary = some codes → VariantOk codes

/-- A palette record as R54 takes it: 16 colours of three components, 8 role indices (each a colour number). -/
def Palette.Ok (p : Palette) : Prop := p.colours.length = 48 ∧ p.roles.length = 8

/-- A tile record as R55 takes it: a segment at least, each of 8 lines of 16 bytes. -/
def Tile.Ok (t : Tile) : Prop :=
  (t.upper ≠ none ∨ t.lower ≠ none) ∧ (∀ lines, t.upper = some lines → lines.length = 128) ∧
    ∀ lines, t.lower = some lines → lines.length = 128

/-- A column in the ranges of R57. -/
def Column.Ok (c : Column) : Prop := c.xOffset ≤ 383 ∧ InRange 1 384 c.width ∧ c.xOffset + c.width ≤ 384

/-- A row format record in the ranges of R57. -/
def FormatOk (columns : List Column) : Prop := InRange 1 6 columns.length ∧ ∀ c ∈ columns, c.Ok

/-- The kind-specific fields of a zone in the ranges of R59. -/
def ZoneKind.Ok : ZoneKind → Prop
  | .rows _ format first count gap pages dwell =>
    format ≤ 7 ∧ first ≤ 15 ∧ InRange 1 8 count ∧ gap ≤ 8 ∧ InRange 1 8 pages ∧ InRange 2 60 dwell
  | .message _ interval dwell idle => InRange 20 500 interval ∧ InRange 2 60 dwell ∧ OptionIn 0 1023 idle
  | .clock _ _ => True
  | .tile first last dwell => first ≤ last ∧ last ≤ 47 ∧ InRange 2 60 dwell
  | .text string _ _ => string ≤ 1023

/-- A zone record in the ranges of R59. -/
def Zone.Ok (z : Zone) : Prop :=
  z.x ≤ 383 ∧ z.y ≤ 95 ∧ InRange 1 384 z.w ∧ InRange 1 96 z.h ∧ z.x + z.w ≤ 384 ∧ z.y + z.h ≤ 96 ∧ z.font ≤ 3 ∧
    z.kind.Ok

/-- A panel record in the ranges of R58. -/
def PanelRow.Ok (r : PanelRow) : Prop :=
  InRange 1 30 r.address ∧ InRange 32 384 r.width ∧ r.width % 8 = 0 ∧ InRange 8 96 r.height ∧ r.palette ≤ 3 ∧
    r.busClass ≤ 3 ∧ (∀ level, r.dim = .fixed level → level ≤ 255) ∧ r.emergencyFont ≤ 3 ∧
    InRange 20 500 r.emergencyInterval ∧ OptionIn 0 1023 r.fallback

/-- A dimming curve as loading ensures it: 2 to 8 points, lights ascending, levels not falling, both bytes (R56). -/
def CurveOk (points : List (Nat × Nat)) : Prop :=
  2 ≤ points.length ∧ points.length ≤ 8 ∧ risingCurve points = true ∧ ∀ p ∈ points, p.1 ≤ 255 ∧ p.2 ≤ 255

/-- A table in canonical form with its numbers below a bound (R48) and its records within the checks of loading. -/
def TableOk {α : Type} (bound : Nat) (ok : α → Prop) (t : Table α) : Prop := t.wf ∧ ∀ e ∈ t, e.1 < bound ∧ ok e.2

/-- The codes of all strings of a bank (R48). -/
def Bank.codesHeld (b : Bank) : Nat := (b.strings.map fun e => e.2.codes).sum

/-- A bank as loading keeps it: canonical tables in their index ranges, every record within the checks of its table (R51
to R59), the pool usage the sum of the codes held and within the pool (R48, R53), a sound curve, and no bus address
shared (R58). -/
def Bank.Ok (b : Bank) : Prop :=
  TableOk 4 Font.Ok b.fonts ∧ TableOk 512 Glyph.Ok b.glyphs ∧ TableOk 1024 Str.Ok b.strings ∧
    TableOk 4 Palette.Ok b.palettes ∧ TableOk 48 Tile.Ok b.tiles ∧ TableOk 8 FormatOk b.formats ∧
    TableOk 16 PanelRow.Ok b.panels ∧ TableOk 192 Zone.Ok b.zones ∧
    b.pool = b.codesHeld ∧ b.pool ≤ 16384 ∧ (∀ points, b.curve = some points → CurveOk points) ∧
    ∀ e ∈ b.panels, ∀ f ∈ b.panels, e.2.bus = f.2.bus → e.2.address = f.2.address → e.1 = f.1

/-- The Table Store: both banks sound, the copy timer running exactly while COPYING, and a swap pending only over a
standby bank that is CLEAN or LOADED (R47). -/
def TableStore.Ok (t : TableStore) : Prop :=
  t.bankA.Ok ∧ t.bankB.Ok ∧ (t.copyTimer.isSome = true ↔ t.standby = .copying) ∧
    (t.swapPending = true → t.standby = .clean ∨ t.standby = .loaded)

/-! ## Message Unit and Contact Inputs -/

/-- The slots and the latches agree (R106): slot 4 + n is LOCKED exactly while contact n's latch is set, and then holds
that alert; slots 0 to 3 are never LOCKED; a remaining duration is of at least a second (R109). -/
def SlotsOk (s : State) : Prop :=
  (∀ i : Fin 8, i.val < 4 → (s.slots.get i).isLocked = false) ∧
    (∀ (i : Fin 8) (r : MessageRecord) (left : Nat), s.slots.get i = .active r (some left) → 1 ≤ left) ∧
    ∀ n : Fin 4,
      match (s.contacts.get n).latch with
      | some a => s.slots.get (contactSlot n) = .locked (alertRecord a)
      | none => (s.slots.get (contactSlot n)).isLocked = false

/-- The contacts' timers and states agree (R112, R113, R117): the filter timer runs exactly while the raw level differs
from the filtered one, the settling timer exactly in SETTLING, and a contact is DISABLED exactly while its enable is
off, with its latch clear. -/
def ContactsOk (s : State) : Prop :=
  ∀ n : Fin 4,
    let c := s.contacts.get n
    (c.filterTimer.isSome = true ↔ c.raw ≠ c.filtered) ∧ (c.settlingTimer.isSome = true ↔ c.state = .settling) ∧
      (c.state = .disabled ↔ (s.settings.contacts.get n).enable = false) ∧ (c.latch.isSome = true → c.state = .watching)

/-! ## Zone Sequencer -/

/-- Every present panel holds the view that the slots, the mode, SILENT and its record choose, an absent panel none, and
a synthetic message zone runs exactly in the EMERGENCY view (R90, R120). -/
def ViewsOk (s : State) : Prop :=
  ∀ p : Fin 16,
    s.disp.seq.views.get p = (s.scene.panel p).map (chosenView s.scene p) ∧
      ((s.disp.seq.synthetic.get p).isSome = true ↔ s.disp.seq.views.get p = some .emergency)

/-! ## Line Coder and Panel Bus Controllers -/

/-- The dirty-line sets and cursors: rising, below the panel's height; empty and 0 for an absent panel (R124, R127). -/
def LinesOk (s : State) : Prop :=
  ∀ p : Fin 16,
    (s.disp.lines.dirty.get p).Pairwise (· < ·) ∧
      match s.scene.panel p with
      | some row => (∀ y ∈ s.disp.lines.dirty.get p, y < row.height) ∧ s.disp.lines.cursor.get p < row.height
      | none => s.disp.lines.dirty.get p = [] ∧ s.disp.lines.cursor.get p = 0

/-- The panel-bus records: ABSENT exactly for an absent panel, fewer than 8 failures outside FAULT and from 8 to 255 in
it, the probe timer and mark only in FAULT (R142, R150, R152). -/
def PanelsOk (s : State) : Prop :=
  ∀ p : Fin 16,
    let r := s.disp.panels.get p
    (r.state = .absent ↔ s.scene.panel p = none) ∧
      (r.state = .starting ∨ r.state = .online → r.failures < faultCount) ∧
      (r.state = .fault → faultCount ≤ r.failures ∧ r.failures ≤ 255) ∧
      (r.state ≠ .fault → r.probeTimer = none ∧ r.probeDue = false) ∧
      ∀ n, r.probeTimer = some n → 1 ≤ n ∧ n ≤ probePeriod

/-- A frame's characters as every frame has them (R189): the marker bit on the first, the address, and on no other, and
data bits that sum to 0 mod 256. -/
def Frame.Spelled (f : Frame) : Prop :=
  f.chars.map BusChar.marker = true :: List.replicate (f.chars.length - 1) false ∧
    sumBytes (f.chars.map BusChar.data) = 0

/-- A bus in its shape (R140, R148, R151): a frame in flight exactly in SENDING and AWAITING; the hold timer exactly
while a panel holds the clock in AWAITING, the answer timer in the rest of AWAITING; HELD only with the clock low, and
IDLE or SENDING only with it released; nothing coded ahead on an IDLE bus; the coded-ahead frame for another panel; and
every frame well spelled. -/
def PanelBus.Ok (clockLow : Bool) (bus : PanelBus) : Prop :=
  (bus.inFlight.isSome = true ↔ bus.state = .sending ∨ bus.state = .awaiting) ∧
    (bus.holdTimer.isSome = true ↔ bus.state = .awaiting ∧ clockLow = true) ∧
    (bus.answerTimer.isSome = true ↔ bus.state = .awaiting ∧ clockLow = false) ∧
    (bus.state = .held → clockLow = true) ∧ (bus.state = .idle ∨ bus.state = .sending → clockLow = false) ∧
    (bus.state = .idle → bus.codedAhead = none) ∧
    (∀ f g, bus.inFlight = some f → bus.codedAhead = some g → f.panel ≠ g.panel) ∧
    (∀ f, bus.inFlight = some f → f.Spelled) ∧ ∀ g, bus.codedAhead = some g → g.Spelled

/-- Both buses in shape. -/
def BusesOk (s : State) : Prop := ∀ b : Bus, (s.buses.get b).Ok (s.pins.clockLow.get b)

/-- The frames stand where the active bank puts their panels (R147, R154): a coded-ahead frame's panel has the frame's
bus and address and its line is below the height; so has the panel of a frame in flight that no swap has orphaned. -/
def FramesOk (s : State) : Prop :=
  ∀ (b : Bus) (f : Frame),
    ((s.buses.get b).codedAhead = some f → f.keptAhead s.tables.activeBank b = true ∧ f.orphaned = false) ∧
      ((s.buses.get b).inFlight = some f → f.orphaned = false → f.stillPlaced s.tables.activeBank b = true)

/-! ## Light Unit -/

/-- A sensor in its ranges (R156, R157): a run below 40, and not seeded only with nothing accumulated. -/
def Sensor.Ok (x : Sensor) : Prop :=
  x.accumulator ≤ 2040 ∧ x.lastSample ≤ 255 ∧ x.run < judgeRun ∧ (x.seeded = false → x.state = .good ∧ x.accumulator = 0)

/-- The Light Unit in its ranges (R156, R158). -/
def LightOk (s : State) : Prop := (∀ n, (s.light.sensors.get n).Ok) ∧ ∀ n, (s.light.groups.get n).level ≤ 255

/-! ## Trunk Port -/

/-- A whole cell that sums to 0 mod 256 (R165, R167). -/
def GoodCell (cell : List Byte) : Prop := cellShape cell = true ∧ sumBytes cell = 0

/-- A receiver part-way through a cell: it holds at least the kind, and fewer characters than the length calls for
(R166). -/
def Receiver.Ok : Receiver → Prop
  | .hunt => True
  | .collect chars =>
    chars ≠ [] ∧ (3 ≤ chars.length → byteAt chars 2 ≤ maxLength ∧ chars.length < byteAt chars 2 + 4)

/-- A queue of at most 4 good cells (R170, R171). -/
def QueueOk (queue : List (List Byte)) : Prop := queue.length ≤ queueSize ∧ ∀ cell ∈ queue, GoodCell cell

/-- The Trunk Port: receivers, queues of good cells, RETURN_OUT busy exactly while a return queue holds a cell (R172), each
line sending the cell at the head of its queue (R165, R170), timer and counts in range (R166, R167, R173). -/
def TrunkOk (s : State) : Prop :=
  s.trunk.rxTrunk.Ok ∧ s.trunk.rxReturn.Ok ∧ QueueOk s.trunk.forward ∧ QueueOk s.trunk.relay ∧ QueueOk s.trunk.own ∧
    (s.trunk.sending = none → s.trunk.relay = [] ∧ s.trunk.own = []) ∧
    (∀ q, s.trunk.sending = some q → s.trunk.queue q ≠ [] ∧ s.trunk.lastServed = q) ∧
    s.trunk.trunkOut = s.trunk.forward.head?.map s.trunk.transmit ∧
    s.trunk.returnOut = (s.trunk.sending.bind fun q => (s.trunk.queue q).head?.map s.trunk.transmit) ∧
    s.trunk.silence ≤ 65535 ∧ s.trunk.abandoned ≤ 255 ∧ s.trunk.checkFailures ≤ 255

/-! ## The whole -/

/-- A safe state: every block as the manual says it always stands. -/
def Safe (s : State) : Prop :=
  s.clock.Ok ∧ BoardsOk s ∧ s.mgmt.settings.Ok ∧ s.mgmt.refusals ≤ 255 ∧ s.tables.Ok ∧ SlotsOk s ∧ ContactsOk s ∧
    ViewsOk s ∧ s.disp.seq.langCount < 30 ∧ LinesOk s ∧ PanelsOk s ∧ BusesOk s ∧ FramesOk s ∧ LightOk s ∧ TrunkOk s

end Sys2Proof.Machine
end

