-- ==== Sys2Proof/Certificates/Slice0/Obligations.lean ====
section
/-! DEFINITION. The statements for the provers, one `def Obligations.<Name> : Prop` each, and the few words they share.
`OnlyChanges` (Sys2Proof/Safety.lean) is the frame: every part of the state that is not listed stays as it was. -/

open Sys2Proof Sys2Proof.Machine

namespace Sys2Proof.Machine.Claims

/-! ## Shared words: boards and the clock -/

/-- The notice that reaches the Zone Sequencer between two states, after the board has its new state (R18). -/
def Noticed (n : Option Notice) (s t : State) : Prop :=
  t.disp = match n with
    | some n => takeNotice n t.scene s.disp
    | none => s.disp

/-- The checks of R6: a field of an ENTRY outside its range. -/
def EntryBad (b : EntryBody) : Prop :=
  7 < b.board ∨ b.sid = 0 ∨ 107999 < b.sched ∨ (b.presence.getLsbD 2 = true ∧ 107999 < b.expected) ∨
    (b.presence.getLsbD 1 = true ∧ (b.platform = 0 ∨ 32 < b.platform)) ∨
    (b.presence.getLsbD 3 = true ∧ (b.cars = 0 ∨ 12 < b.cars)) ∨ 1023 < b.dest ∨
    (b.presence.getLsbD 0 = true ∧ 1023 < b.via) ∨ 3 < b.status

/-- An optional field as a cell carries it. -/
def carried (present : Bool) (v : Nat) : Option Nat := if present then some v else none

/-- The status a code names (R185). -/
def CodesStatus (code : Nat) (st : Status) : Prop :=
  (code = 0 ∧ st = .normal) ∨ (code = 1 ∧ st = .cancelled) ∨ (code = 2 ∧ st = .held) ∨ (code = 3 ∧ st = .arriving)

/-- The entry that an ENTRY posts: its posted fields, absent where the cell carries none, age 0, and the field and role
derived against the settings and clock (R5, R7, R8). -/
def Posts (st : Settings) (clock : StationClock) (b : EntryBody) (e : Entry) : Prop :=
  e.sid = b.sid ∧ e.dest = b.dest ∧ e.via = carried (b.presence.getLsbD 0) b.via ∧
    e.platform = carried (b.presence.getLsbD 1) b.platform ∧ e.sched = b.sched ∧
    e.expected = carried (b.presence.getLsbD 2) b.expected ∧ CodesStatus b.status e.status ∧
    e.cars = carried (b.presence.getLsbD 3) b.cars ∧ e.lastService = b.presence.getLsbD 4 ∧ e.age = 0 ∧
    (e.field, e.role) = derive st clock e

/-- The key of an entry (R4). -/
def keyOf (e : Entry) : Nat := match e.expected with
  | some x => x
  | none => e.sched

/-- One entry orders before another: ascending key, then ascending id (R4). -/
def OrdersBefore (a b : Entry) : Prop := keyOf a < keyOf b ∨ (keyOf a = keyOf b ∧ a.sid < b.sid)

/-- The place of a service id on a board, 0 where it has none. -/
def place (sid : Nat) (l : List Entry) : Nat := (positionOf sid l).getD 0

/-- Every board but one is the same. -/
def OtherBoards (b : Fin 8) (s t : State) : Prop := ∀ b', b' ≠ b → t.boards.get b' = s.boards.get b'

/-- The delay role of R40, with signed differences. -/
def delayOf (threshold : Nat) (e : Entry) : ShownRole :=
  match e.expected with
  | some x => if threshold ≠ 0 ∧ (threshold : Int) ≤ (x : Int) - e.sched then .delayed else .time
  | none => .time

/-- The countdown of R39, with d = k − t signed. -/
def countdownOf (limit key now : Nat) : TimeField :=
  let d : Int := (key : Int) - now
  if d ≤ 30 then .due else if (limit : Int) < (d + 30) / 60 then .clock key else .minutes ((d + 30) / 60).toNat

/-- Whether an entry has run out at a clock value (R15). -/
def gone (st : Settings) (t : Nat) (e : Entry) : Bool :=
  if e.status = .cancelled then decide (e.sched + st.cancelHold ≤ t) else decide (keyOf e + st.departureHold ≤ t)

/-- An entry with the field and role its derivation gives. -/
def derived (st : Settings) (clock : StationClock) (e : Entry) : Entry :=
  { e with field := (derive st clock e).1, role := (derive st clock e).2 }

/-- An entry without its shown field and role. -/
def unshown (e : Entry) : Entry := { e with field := .due, role := .time }

/-- Whether its derivation gives an entry another field or role than it shows (R43). -/
def shownAnew (st : Settings) (clock : StationClock) (e : Entry) : Bool := decide (derive st clock e ≠ (e.field, e.role))

/-- The notice of a board that some entries leave and on which others are shown anew: its range runs from the first
place left to the old end, and it names those that leave and those shown anew; none where there are neither (R15, R16,
R17, R43). -/
def changeNotice (b : Fin 8) (before : List Entry) (leaves anew : Entry → Bool) : Option Notice :=
  let ids := (before.filter leaves ++ (before.filter fun e => !leaves e).filter anew).map Entry.sid
  if ids = [] then none
  else some ⟨b, (before.findIdx? leaves).map fun first => (first, before.length - 1), ids⟩

/-- The display once the boards' notices have reached it in board order, all boards having their new state (R18). -/
def noticesTaken (notice : Fin 8 → Option Notice) (s t : State) : Display :=
  (List.finRange 8).foldl (fun d b =>
    match notice b with
    | some n => takeNotice n t.scene d
    | none => d) s.disp

/-- The boards after a clock change: those that have run out leave where `expire` holds, the rest are derived again, in
their order; each board that changes gives one notice for both, and the CLOCK zones look at the clock (R14, R15, R18,
R32, R43, R103). -/
def BoardsAfterChange (expire : Bool) (s t : State) : Prop :=
  let leaves (e : Entry) : Bool := expire && gone s.settings t.clock.value e
  (∀ b, t.boards.get b = ((s.boards.get b).filter fun e => !leaves e).map (derived s.settings t.clock)) ∧
    t.disp = clockZones t.scene
      (noticesTaken (fun b => changeNotice b (s.boards.get b) leaves (shownAnew s.settings t.clock)) s t)

/-- Every entry of every board is derived again with the settings as they now stand, in its place, and each board names
in a notice those that are shown anew (R43, R44). -/
def Rederived (s t : State) : Prop :=
  (∀ b, t.boards.get b = (s.boards.get b).map (derived t.settings s.clock)) ∧
    t.disp =
      noticesTaken (fun b => changeNotice b (s.boards.get b) (fun _ => false) (shownAnew t.settings s.clock)) s t

/-! ## Shared words: views, messages and frames -/

/-- Some slot of priority EMERGENCY that is ACTIVE or LOCKED has the panel in its mask (R120, case 1). -/
def Emergency (sc : Scene) (p : Fin 16) : Prop :=
  ∃ (i : Fin 8) (r : MessageRecord), (sc.slots.get i).record? = some r ∧ r.priority = .emergency ∧ r.mask.getLsbD p.val = true

/-- The view of a present panel by the first case that holds (R120). -/
def ViewIs (sc : Scene) (p : Fin 16) (row : PanelRow) (v : PanelView) : Prop :=
  (Emergency sc p ∧ row.policy = .full ∧ v = .emergency) ∨
    (¬(Emergency sc p ∧ row.policy = .full) ∧
      ((sc.mode = .night ∧ v = .blank) ∨ (sc.mode = .test ∧ v = .test) ∨
        (sc.mode = .run ∧ sc.silent = true ∧ row.fallback ≠ none ∧ v = .fallback) ∨
        (sc.mode = .run ∧ ¬(sc.silent = true ∧ row.fallback ≠ none) ∧ v = .normal)))

/-- Every present panel's view has been chosen from the state as it stands (R120). -/
def ViewsChosen (t : State) : Prop :=
  ∀ p row, t.scene.panel p = some row → ∃ v, t.disp.seq.views.get p = some v ∧ ViewIs t.scene p row v

/-- Every line of a list is in a panel's dirty-line set. -/
def Dirty (t : State) (p : Fin 16) (ys : List Nat) : Prop := ∀ y ∈ ys, y ∈ t.disp.lines.dirty.get p

/-- Every slot but one is the same. -/
def OtherSlots (i : Fin 8) (s t : State) : Prop := ∀ j, j ≠ i → t.slots.get j = s.slots.get j

/-- Every contact but one is the same. -/
def OtherContacts (n : Fin 4) (s t : State) : Prop := ∀ m, m ≠ n → t.contacts.get m = s.contacts.get m

/-- Whether contact n is active at a level under its polarity (R112). -/
def ActiveAt (s : State) (n : Fin 4) (level : Level) : Prop :=
  (level = .low ∧ (s.settings.contacts.get n).polarity = .activeLow) ∨
    (level = .high ∧ (s.settings.contacts.get n).polarity = .activeHigh)

/-- The record that fills the slot of an alert: EMERGENCY, the mask and string the alert took, font 0 (R114). -/
def alertSlot (a : Alert) : Slot := .locked ⟨.emergency, a.mask, 0, .string a.string⟩

/-- The checks of the cells that name a bank while the standby bank is COPYING or a swap is pending (R49, R60 to R62).
-/
def Busy (s : State) : Prop := s.tables.standby = .copying ∨ s.tables.swapPending = true

/-- The panel-bus record, the dirty lines and the refresh cursor of every panel but one are the same. -/
def OtherPanels (p : Fin 16) (s t : State) : Prop :=
  ∀ q, q ≠ p → t.disp.panels.get q = s.disp.panels.get q ∧ t.disp.lines.dirty.get q = s.disp.lines.dirty.get q ∧
    t.disp.lines.cursor.get q = s.disp.lines.cursor.get q

/-- Several commands executed one after the other. -/
def runAll : List Instr → State → Host.Outcome State Fault Refusal
  | [], s => .next s
  | c :: rest, s =>
    match exec c s with
    | .next t => runAll rest t
    | .fault f => .fault f
    | .refused r => .refused r

/-- The characters of a cell as a line carries them: marker on the first alone, good stop bits (R165). -/
def onLine : List Byte → List LineChar
  | [] => []
  | kind :: rest => ⟨kind, true, true⟩ :: rest.map fun b => ⟨b, false, true⟩

/-- No flag raised in one set of sticky flags is clear in another. -/
def StillRaised (f g : Flags) : Prop :=
  (∀ b, f.overflow.get b = true → g.overflow.get b = true) ∧ (f.fwdDrop = true → g.fwdDrop = true) ∧
    (f.relayDrop = true → g.relayDrop = true) ∧ (f.replyDrop = true → g.replyDrop = true) ∧
    (f.newDay = true → g.newDay = true) ∧ (f.pulseDiscord = true → g.pulseDiscord = true) ∧
    (f.settingClamped = true → g.settingClamped = true)

/-- SETTING_CLAMPED is raised where a value was changed, and no other flag moves (R178). -/
def ClampNoted (carried written : Nat) (s t : State) : Prop :=
  t.mgmt.flags = { s.mgmt.flags with settingClamped := s.mgmt.flags.settingClamped || decide (carried ≠ written) }

/-- A string record in its cell layout (R187): a length and codes, and 255 or a second length and codes. -/
def stringRecord (primary : List Nat) : Option (List Nat) → List Byte
  | none => bytes1 primary.length ++ primary.flatMap bytes2 ++ [255]
  | some secondary =>
    bytes1 primary.length ++ primary.flatMap bytes2 ++ bytes1 secondary.length ++ secondary.flatMap bytes2

/-- The part of the state that holds the runtime of a message place. -/
def runtimePart : MsgZone → Part
  | .zone _ => .runtimes
  | .synthetic _ => .synthetic

/-- Whether the marks of a message place are taken: always for a synthetic zone, for a MESSAGE zone on a panel in NORMAL
(R85, R101). -/
def MarksTaken (s : State) (pl : MessagePlace) : Prop := pl.zone = none ∨ s.disp.seq.views.get pl.panel = some .normal

/-- The lines of a message place that a text in a font of a height is drawn on (R78, R101). -/
def textLinesAt (pl : MessagePlace) (height : Nat) : List Nat :=
  match pl.zone with
  | some zone => zone.textLines pl.row height
  | none => syntheticTextLines pl.row height

/-- Every line of a message place (R75, R101). -/
def linesAt (pl : MessagePlace) : List Nat :=
  match pl.zone with
  | some zone => zone.lines pl.row
  | none => List.range pl.row.height

/-- The class gap of a class, none for 0 ms (R70, R148). -/
def gapOf (busClass : Nat) : Option Nat :=
  if busClass = 0 then none else if busClass = 1 then some 1 else if busClass = 2 then some 4 else some 10

/-- A bus after an outcome (R147, R148, R151): HELD with the clock low; else its coded-ahead frame starts, or it is
IDLE. -/
def Settled (rate : Nat) (clockLow : Bool) (b b' : PanelBus) : Prop :=
  b'.answerTimer = none ∧ b'.holdTimer = none ∧ b'.marker = b.marker ∧
    (if clockLow then b'.state = .held ∧ b'.inFlight = none ∧ b'.codedAhead = b.codedAhead
    else
      match b.codedAhead with
      | some g => b'.state = .sending ∧ b'.inFlight = some { g with rate := some rate } ∧ b'.codedAhead = none
      | none => b'.state = .idle ∧ b'.inFlight = none ∧ b'.codedAhead = none)

/-- One sample of a sensor by R156 and R157. -/
def Sampled (x y : Sensor) (v : Nat) : Prop :=
  y.lastSample = v ∧
    (x.state = .good →
      y.accumulator = (if x.seeded then x.accumulator - x.accumulator / 8 + v else 8 * v) ∧ y.seeded = true ∧
        (v ≠ 255 → y.state = .good ∧ y.run = 0) ∧
        (v = 255 → if x.run = 39 then y.state = .failed ∧ y.run = 0 else y.state = .good ∧ y.run = x.run + 1)) ∧
    (x.state = .failed →
      (v = 255 → y = { x with lastSample := v, run := 0 }) ∧
        (v ≠ 255 → x.run ≠ 39 → y = { x with lastSample := v, run := x.run + 1 }) ∧
        (v ≠ 255 → x.run = 39 → y = ⟨true, 8 * v, v, .good, 0⟩))

/-- A MESSAGE that passes every check of R107 and fills slot i (R108). -/
def MessageTaken (body : MessageBody) (i : Fin 8) (s : State) : Prop :=
  body.slot = i.val ∧ body.priority ≤ 2 ∧ body.font ≤ 3 ∧ 1 ≤ body.count ∧ body.count ≤ 120 ∧
    body.tail.length = 2 * body.count ∧ (∀ c ∈ wordsOf body.tail, c ≤ 511) ∧ (s.slots.get i).isLocked = false

/-- The text of a clock: UNSET, or the digits hh and mm, and ss with seconds (R79, R103). -/
def clockTextOf (c : StationClock) (seconds : Bool) : ClockText :=
  if c.state = .unset then .unset
  else
    .digits ([c.value / 3600 % 24 / 10, c.value / 3600 % 24 % 10, c.value % 3600 / 60 / 10, c.value % 3600 / 60 % 10] ++
      if seconds then [c.value % 60 / 10, c.value % 60 % 10] else [])

/-- A text begins at a place (R95, R96, R98): a pass from offset 0 where it is wider than the place, else it is held for
the dwell; where nothing is shown neither runs. -/
def Afresh (pl : MessagePlace) (sc : Scene) (rt : MessageRuntime) : Prop :=
  rt.offset = 0 ∧
    if rt.showing = .empty then rt.stepTimer = none ∧ rt.dwell = none
    else if pl.width < pl.shownWidth sc rt.showing then rt.stepTimer = some pl.interval ∧ rt.dwell = none
    else rt.stepTimer = none ∧ rt.dwell = some pl.dwell

/-- A place shows nothing of a slot: its idle string, where it has one (R97). -/
def ShowsNoSlot (pl : MessagePlace) (rt : MessageRuntime) : Prop :=
  rt.showing = if pl.idle = none then .empty else .idle

/-- The runtime a message place starts with: from a cursor of 7, the first slot of its top group, or none (R90, R101).
-/
def MessageStarts (pl : MessagePlace) (sc : Scene) (rt : MessageRuntime) : Prop :=
  Afresh pl sc rt ∧
    match successor 7 (topGroup sc.slots pl.panel pl.floor) with
    | some n => rt.showing = .slot n ∧ rt.cursor = n
    | none => ShowsNoSlot pl rt ∧ rt.cursor = 7

/-- The synthetic message zone of a panel (R101): the whole panel, the emergency font and interval, 5 s, EMERGENCY slots
alone. -/
def syntheticOf (p : Fin 16) (row : PanelRow) (phase : Phase) : MessagePlace :=
  ⟨p, row, none, row.width, row.emergencyInterval, 5, .emergency, none, row.emergencyFont, decide (phase = .secondary)⟩

/-- The runtime a zone starts with, by its kind (R90, R105). -/
def Starts (sc : Scene) (phase : Phase) (p : Fin 16) (row : PanelRow) (zone : Zone) (rt : Option ZoneRuntime) : Prop :=
  match zone.kind with
  | .rows board _ first rows _ pages dwell =>
    rt = if pages = 1 then none
      else some (.page 0 ((List.range rows).map fun i => ((sc.boards.get board)[first + i]?).map Entry.sid) dwell)
  | .message floor interval dwell idle =>
    ∃ m, rt = some (.message m) ∧
      MessageStarts ⟨p, row, some zone, zone.w, interval, dwell, floor, idle, zone.font,
        drawsSecondary zone.language phase⟩ sc m
  | .clock seconds _ => rt = some (.clock (clockTextOf sc.clock seconds))
  | .tile first last dwell => rt = if first = last then none else some (.tile first dwell)
  | .text _ _ _ => rt = none

/-- The display side has started afresh, as at a swap or a RESTART (R90, R105, R126, R128, R143): every zone with the
runtime of its kind and no other zone with any, every present panel STARTING with all its work, every absent one
without. (A zone's number names one zone where the zone table is in canonical form, as loading keeps it.) -/
def DisplayStarted (t : State) : Prop :=
  (t.tables.activeBank.zones.wf → ∀ z p row zone, (z, p, row, zone) ∈ t.scene.zones →
      Starts t.scene t.disp.seq.phase p row zone (t.disp.seq.runtimes.find z)) ∧
    (∀ z rt, t.disp.seq.runtimes.find z = some rt → ∃ p row zone, (z, p, row, zone) ∈ t.scene.zones) ∧
    (∀ p row, t.scene.panel p = some row →
      t.disp.panels.get p =
          ⟨.starting, 0, none, none, false,
            some (if t.disp.seq.views.get p = some .blank then .blank else .unblank), true⟩ ∧
        t.disp.lines.dirty.get p = List.range row.height ∧ t.disp.lines.cursor.get p = 0 ∧
        (t.disp.seq.views.get p = some .emergency →
          ∃ m, t.disp.seq.synthetic.get p = some m ∧ MessageStarts (syntheticOf p row t.disp.seq.phase) t.scene m) ∧
        (t.disp.seq.views.get p ≠ some .emergency → t.disp.seq.synthetic.get p = none)) ∧
    ∀ p, t.scene.panel p = none →
      t.disp.panels.get p = ⟨.absent, 0, none, none, false, none, false⟩ ∧ t.disp.lines.dirty.get p = [] ∧
        t.disp.lines.cursor.get p = 0 ∧ t.disp.seq.views.get p = none ∧ t.disp.seq.synthetic.get p = none

/-- A command that changes slot i, and whether a new text is written into it (R106, R108 to R110, R113 to R115, R117).
-/
def ChangesSlot (s : State) (i : Fin 8) (newText : Bool) : Instr → Prop
  | .message body => newText = true ∧ MessageTaken body i s
  | .messageEnd slot => newText = false ∧ slot = i.val ∧ ∃ r left, s.slots.get i = .active r left
  | .messageDurationExpiry slot => newText = false ∧ slot = i ∧ ∃ r left, s.slots.get i = .active r (some left) ∧ left ≤ 1
  | .filterExpiry n =>
    newText = true ∧ i = contactSlot n ∧ (s.contacts.get n).filterTimer ≠ none ∧ (s.contacts.get n).state = .watching ∧
      (s.contacts.get n).latch = none ∧ (s.contacts.get n).raw ≠ (s.contacts.get n).filtered ∧
      ActiveAt s n (s.contacts.get n).raw
  | .ackAlert contact =>
    newText = false ∧ ∃ n : Fin 4, contact = n.val ∧ i = contactSlot n ∧ (s.contacts.get n).latch ≠ none ∧
      ¬((s.settings.contacts.get n).mode = .level ∧ ActiveAt s n (s.contacts.get n).filtered)
  | .settlingExpiry n =>
    newText = true ∧ i = contactSlot n ∧ (s.contacts.get n).settlingTimer ≠ none ∧ (s.contacts.get n).latch = none ∧
      (s.settings.contacts.get n).mode = .level ∧ ActiveAt s n (s.contacts.get n).filtered
  | .setContactEnable n v =>
    i = contactSlot n ∧
      ((newText = true ∧ v ≠ 0 ∧ (s.settings.contacts.get n).enable = false ∧ (s.contacts.get n).latch = none ∧
          (s.settings.contacts.get n).mode = .level ∧ ActiveAt s n (s.contacts.get n).filtered) ∨
        (newText = false ∧ v = 0 ∧ (s.settings.contacts.get n).enable = true ∧ (s.contacts.get n).latch ≠ none))
  | .setContactMode n v =>
    newText = true ∧ i = contactSlot n ∧ v ≠ 0 ∧ (s.contacts.get n).state = .watching ∧
      (s.contacts.get n).latch = none ∧ ActiveAt s n (s.contacts.get n).filtered
  | .setContactPolarity n v =>
    newText = true ∧ i = contactSlot n ∧ (s.contacts.get n).state = .watching ∧ (s.contacts.get n).latch = none ∧
      (s.settings.contacts.get n).mode = .level ∧
      (s.contacts.get n).filtered = (if v = 0 then .low else .high)
  | _ => False

/-- A MESSAGE zone judged again after a change of slot i (R99), its runtime rt before and rt' after; `sc` is the scene
with the slot changed. -/
def Rejudged (pl : MessagePlace) (sc : Scene) (i : Fin 8) (newText : Bool) (rt rt' : MessageRuntime) : Prop :=
  let group := topGroup sc.slots pl.panel pl.floor
  (∀ n, rt.showing = .slot n → n ∈ group →
      if newText = true ∧ n = i then rt'.showing = .slot n ∧ rt'.cursor = rt.cursor ∧ Afresh pl sc rt' else rt' = rt) ∧
    (∀ n, rt.showing = .slot n → n ∉ group →
      (∀ next, successor n group = some next → rt'.showing = .slot next ∧ rt'.cursor = next ∧ Afresh pl sc rt') ∧
        (group = [] → ShowsNoSlot pl rt' ∧ rt'.cursor = rt.cursor ∧ Afresh pl sc rt')) ∧
    (rt.showing = .idle ∨ rt.showing = .empty →
      (∀ next, successor rt.cursor group = some next →
          rt'.showing = .slot next ∧ rt'.cursor = next ∧ Afresh pl sc rt') ∧
        (group = [] → rt' = rt))

/-- A ROWS zone of more than one page (R92). -/
def Paged (zone : Zone) : Prop :=
  ∃ board format first rows gap pages dwell, zone.kind = .rows board format first rows gap pages dwell ∧ pages ≠ 1

/-- The view of a present panel has changed from s to t (R121): BLANK is pending on entering BLANK and UNBLANK on
leaving it, and nothing else of its bus record changes; every line is marked (R88, R89, R124; into BLANK by log entry
25, DEDUCED); a synthetic zone starts in EMERGENCY and stands in no other view (R101). -/
def ViewChanged (p : Fin 16) (row : PanelRow) (s t : State) : Prop :=
  t.disp.panels.get p = { s.disp.panels.get p with
      viewCommand :=
        if t.disp.seq.views.get p = some .blank then some .blank
        else if s.disp.seq.views.get p = some .blank then some .unblank
        else (s.disp.panels.get p).viewCommand } ∧
    (∀ y, y ∈ t.disp.lines.dirty.get p ↔ y < row.height ∨ y ∈ s.disp.lines.dirty.get p) ∧
    (t.disp.seq.views.get p = some .emergency → ∃ rt, t.disp.seq.synthetic.get p = some rt ∧
      MessageStarts (syntheticOf p row t.disp.seq.phase) t.scene rt) ∧
    (t.disp.seq.views.get p ≠ some .emergency → t.disp.seq.synthetic.get p = none)

/-- What a zone that no slot concerns does as the views are chosen again: a paged zone of a panel that enters NORMAL
starts again (R94), and every other keeps its runtime. -/
def PagingRestarts (s t : State) (z : Nat) (p : Fin 16) (row : PanelRow) (zone : Zone) : Prop :=
  let entersNormal := t.disp.seq.views.get p ≠ s.disp.seq.views.get p ∧ t.disp.seq.views.get p = some .normal
  (entersNormal ∧ Paged zone → Starts t.scene t.disp.seq.phase p row zone (t.disp.seq.runtimes.find z)) ∧
    (¬(entersNormal ∧ Paged zone) → t.disp.seq.runtimes.find z = s.disp.seq.runtimes.find z)

/-- The views have been chosen again, after a change of the mode or of SILENT: each present panel has the view of R120,
a panel whose view changes does as R121 says, and a panel whose view stays is left alone (R94, R101, R120, R121). (The
zone table is in canonical form, as loading keeps it.) -/
def ViewsRechosen (s t : State) : Prop :=
  ViewsChosen t ∧
    (∀ p row, s.scene.panel p = some row → t.disp.seq.views.get p ≠ s.disp.seq.views.get p → ViewChanged p row s t) ∧
    (∀ p, t.disp.seq.views.get p = s.disp.seq.views.get p →
      t.disp.panels.get p = s.disp.panels.get p ∧ t.disp.lines.dirty.get p = s.disp.lines.dirty.get p ∧
        t.disp.seq.synthetic.get p = s.disp.seq.synthetic.get p) ∧
    (s.tables.activeBank.zones.wf →
      ∀ z p row zone, (z, p, row, zone) ∈ s.scene.zones → PagingRestarts s t z p row zone)

/-- A message place judged again from s to t after a change of slot i: its runtime does as R99 says, and where it moves
or its text is new all its lines are marked (R99, R101). -/
def PlaceJudged (i : Fin 8) (newText : Bool) (s t : State) (ref : MsgZone) (pl : MessagePlace) (rt : MessageRuntime) :
    Prop :=
  ∃ rt', t.disp.messageRuntime? ref = some rt' ∧ Rejudged pl t.scene i newText rt rt' ∧
    (rt'.showing ≠ rt.showing ∨ (newText = true ∧ rt.showing = .slot i) → MarksTaken s pl →
      Dirty t pl.panel (linesAt pl))

/-- The lines that the judging of a panel's message places marks: all those of a place that moves, or whose text is new
(R85, R99, R101). -/
def JudgingMarks (i : Fin 8) (newText : Bool) (s t : State) (p : Fin 16) (y : Nat) : Prop :=
  ∃ ref pl rt, messagePlace? s.scene s.disp.seq.phase ref = some pl ∧ pl.panel = p ∧
    s.disp.messageRuntime? ref = some rt ∧ MarksTaken s pl ∧ y ∈ linesAt pl ∧
    ((t.disp.messageRuntime? ref).map MessageRuntime.showing ≠ some rt.showing ∨ (newText = true ∧ rt.showing = .slot i))

/-- A change of slot i has been handed on from s to t (R99, R106, R120, R121): the message places have been judged
again, and then the views chosen again. A panel whose view changes does as R121 says; one whose view stays keeps its bus
record and takes the marks of its message places and no others. A zone that shows no message does as in any such choice.
(The zone table is in canonical form, as loading keeps it, and a synthetic zone stands only in EMERGENCY.) -/
def SlotHandedOn (i : Fin 8) (newText : Bool) (s t : State) : Prop :=
  ViewsChosen t ∧
    (∀ p row, s.scene.panel p = some row → t.disp.seq.views.get p ≠ s.disp.seq.views.get p → ViewChanged p row s t) ∧
    (∀ p, t.disp.seq.views.get p = s.disp.seq.views.get p →
      t.disp.panels.get p = s.disp.panels.get p ∧
        (s.disp.seq.synthetic.get p = none → t.disp.seq.synthetic.get p = none) ∧
        ((s.disp.seq.synthetic.get p ≠ none → s.disp.seq.views.get p = some .emergency) →
          s.tables.activeBank.zones.wf →
          ∀ y, y ∈ t.disp.lines.dirty.get p ↔ y ∈ s.disp.lines.dirty.get p ∨ JudgingMarks i newText s t p y)) ∧
    (s.tables.activeBank.zones.wf →
      (∀ ref pl rt, messagePlace? s.scene s.disp.seq.phase ref = some pl → s.disp.messageRuntime? ref = some rt →
        (pl.zone = none →
          s.disp.seq.views.get pl.panel = some .emergency ∧ t.disp.seq.views.get pl.panel = some .emergency) →
        PlaceJudged i newText s t ref pl rt) ∧
      ∀ z p row zone, (z, p, row, zone) ∈ s.scene.zones →
        (∀ floor interval dwell idle, zone.kind ≠ .message floor interval dwell idle) → PagingRestarts s t z p row zone)

/-- Contact n raises its alert from s to t: the latch takes the contact's mask and string, slot 4 + n is LOCKED with
them, the other slots stay, and the change of the slot, a new text, is handed on (R114). -/
def Raises (n : Fin 4) (s t : State) : Prop :=
  let cs := s.settings.contacts.get n
  (t.contacts.get n).latch = some ⟨cs.mask, cs.alertString⟩ ∧
    t.slots.get (contactSlot n) = alertSlot ⟨cs.mask, cs.alertString⟩ ∧ OtherSlots (contactSlot n) s t ∧
    SlotHandedOn (contactSlot n) true s t

/-- Contact n raises nothing: its latch, every slot and the display stay. -/
def RaisesNothing (n : Fin 4) (s t : State) : Prop :=
  (t.contacts.get n).latch = (s.contacts.get n).latch ∧ t.slots = s.slots ∧ t.disp = s.disp

/-- A message place goes on from rt to rt' at the end of a pass or dwell (R98, R101): a slot gives way to its successor,
which begins afresh, as it does again where it is its own successor; an idle string begins again; a slot of an emptied
group gives way to the idle string or to nothing, and in a synthetic zone stays as it is. -/
def MovesOn (pl : MessagePlace) (sc : Scene) (rt rt' : MessageRuntime) : Prop :=
  let group := topGroup sc.slots pl.panel pl.floor
  (rt.showing = .idle → rt'.showing = .idle ∧ rt'.cursor = rt.cursor ∧ Afresh pl sc rt') ∧
    (∀ slot next, rt.showing = .slot slot → successor slot group = some next →
      rt'.showing = .slot next ∧ rt'.cursor = (if next = slot then rt.cursor else next) ∧ Afresh pl sc rt') ∧
    ∀ slot, rt.showing = .slot slot → successor slot group = none →
      if pl.zone = none then rt' = rt else ShowsNoSlot pl rt' ∧ rt'.cursor = rt.cursor ∧ Afresh pl sc rt'

/-- Every zone runtime but that of a message place is the same. -/
def OtherRuntimes (ref : MsgZone) (s t : State) : Prop :=
  (∀ z : Nat, (∀ w : Fin 192, ref = .zone w → w.val ≠ z) → t.disp.seq.runtimes.find z = s.disp.seq.runtimes.find z) ∧
    ∀ p, ref ≠ .synthetic p → t.disp.seq.synthetic.get p = s.disp.seq.synthetic.get p

/-- Lines of one panel have been marked, and no others. -/
def MarksOnly (p : Fin 16) (marked : Nat → Prop) (s t : State) : Prop :=
  ∀ q y, y ∈ t.disp.lines.dirty.get q ↔ y ∈ s.disp.lines.dirty.get q ∨ (q = p ∧ marked y)

/-- An entry with what no row draws of it left out: its id and drawn content (R3). -/
def drawnOf (e : Entry) : Entry := { e with expected := none, status := .normal, lastService := false, age := 0 }

/-- From s to t every departure row of a panel in NORMAL whose entry draws otherwise, or is another or none, has its
lines marked: by position in a zone of one page, by the id its record holds in a paged one (R13, R15, R43, R85 to R87,
R93). -/
def RowsFollowBoards (s t : State) : Prop :=
  ∀ z p row zone board format first rows gap pages dwell i, (z, p, row, zone) ∈ s.scene.zones →
    zone.kind = .rows board format first rows gap pages dwell → i < rows → s.disp.seq.views.get p = some .normal →
    let lines := zone.rowLines row (s.tables.activeBank.font zone.font).height gap i
    let byId (l : List Entry) (sid : Nat) := (l.find? fun e => decide (e.sid = sid)).map drawnOf
    (pages = 1 →
        ((t.boards.get board)[first + i]?).map drawnOf ≠ ((s.boards.get board)[first + i]?).map drawnOf →
        Dirty t p lines) ∧
      ∀ index snapshot left sid, pages ≠ 1 → s.disp.seq.runtimes.find z = some (.page index snapshot left) →
        snapshot[i]? = some (some sid) → byId (t.boards.get board) sid ≠ byId (s.boards.get board) sid →
        Dirty t p lines

/-- PALETTE is pending on each panel of a sensor group whose level differs from s to t, and nothing else of any panel's
bus record changes (R160, R161). -/
def PalettesFollowLevels (s t : State) : Prop :=
  ∀ p, t.disp.panels.get p = { s.disp.panels.get p with
    palettePending := (s.disp.panels.get p).palettePending ||
      match (s.scene.panel p).map PanelRow.dim with
      | some (.sensor n) => decide ((t.light.groups.get n).level ≠ (s.light.groups.get n).level)
      | some (.fixed _) | none => false }

/-- The panel of a bus is a candidate (R145). -/
def Candidate (s : State) (b : Bus) (p : Fin 16) : Prop :=
  let r := s.disp.panels.get p
  (∃ row, s.scene.panel p = some row ∧ row.bus = b) ∧
    (((r.state = .starting ∨ r.state = .online) ∧
        (r.viewCommand ≠ none ∨ r.palettePending = true ∨
          (s.disp.seq.views.get p ≠ some .blank ∧ s.disp.lines.dirty.get p ≠ []))) ∨
      (r.state = .fault ∧ r.probeDue = true)) ∧
    r.gapTimer = none ∧ (∀ f, (s.buses.get b).inFlight = some f → f.panel ≠ p) ∧
    ∀ f, (s.buses.get b).codedAhead = some f → f.panel ≠ p

/-- From u to t a bus has chosen while it may: two choices, the second into the coded-ahead place (R145, R147, R151,
R153; that there are two is log entry 7). -/
def ChosenAgain (b : Bus) (u t : State) : Prop := runAll [.frameChoice b, .frameChoice b] u = .next t

/-- A load judged in the order of R49: a bad index, then a bad length, then bad fields, each refused under its reason,
and where all pass what the fields spell is written. -/
def JudgedInOrder {α : Type} (result : LoadResult) (indexOk lengthOk : Prop) (fields : α → Prop) (written : α → Bank) :
    Prop :=
  (¬indexOk → result = .error .badIndex) ∧ (indexOk → ¬lengthOk → result = .error .badLength) ∧
    (indexOk → lengthOk →
      (∀ a, fields a → result = .ok (written a)) ∧ ((∀ a, ¬fields a) → result = .error .badField))

/-- The 38 setting values in number order, choices as their codes (R177, R186). -/
def settingValues (st : Settings) : List Nat :=
  [st.departureHold, st.cancelHold, st.stalePeriod, st.countdownLimit, st.delayThreshold, st.languageDwell,
    st.silenceLimit, st.refreshCycle, st.busRate.get .busA, st.busRate.get .busB,
    if st.busEnable.get .busA then 1 else 0, if st.busEnable.get .busB then 1 else 0, st.holdLimit, st.fallbackLevel] ++
    (List.finRange 4).flatMap fun n =>
      [if (st.contacts.get n).enable then 1 else 0, if (st.contacts.get n).mode = .level then 1 else 0,
        if (st.contacts.get n).polarity = .activeHigh then 1 else 0, (st.contacts.get n).filter,
        (st.contacts.get n).mask.toNat, (st.contacts.get n).alertString]

/-- A bus in a state with a frame in flight that no swap has orphaned, of a panel that is present (R148, R154). -/
def Flying (state : BusState) (s : State) (b : Bus) (f : Frame) (row : PanelRow) : Prop :=
  (s.buses.get b).state = state ∧ (s.buses.get b).inFlight = some f ∧ f.orphaned = false ∧
    s.scene.panel f.panel = some row ∧ (s.disp.panels.get f.panel).state ≠ .absent

/-- A frame of a panel has failed between s and u (R148, R150, R152): its work is handed back, the count rises by one,
the eighth failure of a STARTING or ONLINE panel makes it FAULT with 10 s of probe timer, a failed probe loads that
timer again, the class gap starts, and no other panel is touched. -/
def Fails (f : Frame) (row : PanelRow) (s u : State) : Prop :=
  let r := s.disp.panels.get f.panel
  let count := min 255 (r.failures + 1)
  u.disp.panels.get f.panel =
      { state := if r.state = .fault ∨ 8 ≤ count then .fault else r.state
        failures := count
        gapTimer := gapOf row.busClass
        probeTimer := if r.state = .fault ∨ 8 ≤ count then some 10 else r.probeTimer
        probeDue := r.probeDue && !decide (r.state ≠ .fault ∧ 8 ≤ count)
        viewCommand :=
          match f.work with
          | .view v => some (r.viewCommand.getD v)
          | .line _ | .palette => r.viewCommand
        palettePending := r.palettePending || decide (f.work = .palette) } ∧
    (∀ y, y ∈ u.disp.lines.dirty.get f.panel ↔
      y ∈ s.disp.lines.dirty.get f.panel ∨ (f.work = .line y ∧ y < row.height)) ∧
    u.disp.lines.cursor.get f.panel = s.disp.lines.cursor.get f.panel ∧ OtherPanels f.panel s u

/-- A cell good and taken by a coder whose taking builds a DEVICE report or restarts it: a QUERY for DEVICE or a RESTART
(R168, R169, R180). -/
def ClearsFlags (s : State) (cell : List Byte) : Prop :=
  GoodCell cell ∧ (byteAt cell 1 = 0 ∨ byteAt cell 1 = s.trunk.node.val) ∧
    ((byteAt cell 0 = 0x50 ∧ byteAt cell 2 = 2 ∧ byteAt cell 3 = 0 ∧ byteAt cell 4 = 0) ∨
      (byteAt cell 0 = 0x5F ∧ byteAt cell 2 = 0))

/-- The trunk rate of a rate code, RATE_1 the upper bit (R165, log entry 28). -/
def rateOf (rateCode : Fin 4) : Nat := [115200, 230400, 460800, 921600].getD rateCode.val 0

/-- A line sends a cell, with the marker bit on its first character alone and at the trunk rate, or rests for want of
one (R165). -/
def LineSends (rateCode : Fin 4) (cell : Option (List Byte)) (line : Option Transmission) : Prop :=
  match cell with
  | none => line = none
  | some cell => ∃ sent, line = some sent ∧ sent.rate = rateOf rateCode ∧ sent.chars.map BusChar.data = cell ∧
      ∀ i ch, sent.chars[i]? = some ch → ch.marker = decide (i = 0)

/-- TRUNK_OUT sends the head of the forward queue (R165, R170). -/
def TrunkOutSends (t : State) : Prop := LineSends t.trunk.rateCode t.trunk.forward.head? t.trunk.trunkOut

/-- RETURN_OUT sends the head of the queue being served (R165, R172). -/
def ReturnOutSends (t : State) : Prop :=
  LineSends t.trunk.rateCode
    (match t.trunk.sending with
      | none => none
      | some .relay => t.trunk.relay.head?
      | some .own => t.trunk.own.head?) t.trunk.returnOut

/-- Cells join the own-reply queue one after the other, as far as it has room, each that finds it full raising
REPLY_DROP; the relay queue stays; one that joins an idle RETURN_OUT is weighed by the arbiter at once, and with the
relay queue empty starts, the line sending the head of the queue served (R165, R171, R172). -/
def JoinOwn (cells : List (List Byte)) (before : Bool) (s t : State) : Prop :=
  t.trunk.own = s.trunk.own ++ cells.take (4 - s.trunk.own.length) ∧ t.trunk.relay = s.trunk.relay ∧
    t.mgmt.flags.replyDrop = (before || decide (4 < s.trunk.own.length + cells.length)) ∧
    (if s.trunk.sending = none ∧ s.trunk.own.length < 4 then
      t.trunk.sending = some (if s.trunk.relay ≠ [] ∧ s.trunk.lastServed = .own then .relay else .own) ∧
        t.trunk.sending = some t.trunk.lastServed
    else t.trunk.sending = s.trunk.sending ∧ t.trunk.lastServed = s.trunk.lastServed) ∧
    (if s.trunk.own.length < 4 then ReturnOutSends t else t.trunk.returnOut = s.trunk.returnOut)

/-- A cell is forwarded: it joins the forward queue, whose head TRUNK_OUT sends, or is dropped from a full one with
FWD_DROP (R165, R170). -/
def Forwarded (cell : List Byte) (s t : State) : Prop :=
  if s.trunk.forward.length < 4 then
    t.trunk.forward = s.trunk.forward ++ [cell] ∧ TrunkOutSends t ∧ t.mgmt.flags = s.mgmt.flags
  else t.trunk.forward = s.trunk.forward ∧ t.trunk.trunkOut = s.trunk.trunkOut ∧
    t.mgmt.flags = { s.mgmt.flags with fwdDrop := true }

/-- The shown field of an entry as a report carries it: its code and its number (R188). -/
def fieldSpelling : TimeField → Nat × Nat
  | .due => (0, 0)
  | .minutes m => (1, m)
  | .clock x => (2, x)
  | .staleClock x => (3, x)
  | .cancelled => (4, 0)
  | .held => (5, 0)
  | .arriving => (6, 0)

/-- An optional field carried in a report: its presence bit, and its value where present (R185). -/
def CarriedAs (present : Bool) (value bound : Nat) (field : Option Nat) : Prop :=
  match field with
  | some v => present = true ∧ value = v % bound
  | none => present = false

/-- A bank's part of a BANK report: pool usage and the nine present-record counts in table-number order (R67, R188). -/
def BankSpelled (contents : List Byte) (at_ : Nat) (b : Bank) : Prop :=
  wordAt contents at_ = b.pool % 65536 ∧ wordAt contents (at_ + 2) = b.fonts.length % 65536 ∧
    wordAt contents (at_ + 4) = b.glyphs.length % 65536 ∧ wordAt contents (at_ + 6) = b.strings.length % 65536 ∧
    wordAt contents (at_ + 8) = b.palettes.length % 65536 ∧ wordAt contents (at_ + 10) = b.tiles.length % 65536 ∧
    wordAt contents (at_ + 12) = (if b.curve = none then 0 else 1) ∧
    wordAt contents (at_ + 14) = b.formats.length % 65536 ∧ wordAt contents (at_ + 16) = b.panels.length % 65536 ∧
    wordAt contents (at_ + 18) = b.zones.length % 65536

/-! ## Shared words: table records -/

/-- The fields of a font record (R51, R187). -/
def FontFields (r : List Byte) (f : Font) : Prop := f = ⟨byteAt r 0, byteAt r 1, wordAt r 2⟩ ∧ f.Ok

/-- The points of a curve record, and the checks of R56 on them. -/
def CurveFields (r : List Byte) (points : List (Nat × Nat)) : Prop :=
  InRange 2 8 points.length ∧ points.length = byteAt r 0 ∧
    (∀ k, k < points.length → points[k]? = some (byteAt r (2 * k + 1), byteAt r (2 * k + 2))) ∧
    ∀ k p q, points[k]? = some p → points[k + 1]? = some q → p.1 < q.1 ∧ p.2 ≤ q.2

/-- The fields of one column at a place of a row format record (R57, R187). -/
def ColumnFields (r : List Byte) (at_ : Nat) (c : Column) : Prop :=
  [FieldKind.destination, .via, .platform, .scheduled, .time, .cars][byteAt r at_]? = some c.field ∧
    c.xOffset = wordAt r (at_ + 1) ∧ c.width = wordAt r (at_ + 3) ∧
    [Align.left, .right, .centre][byteAt r (at_ + 5)]? = some c.align ∧
    [ColourRole.text, .destination, .time, .delayed, .cancelled, .stale, .message, .emergency][byteAt r (at_ + 6)]? =
      some c.role ∧
    c.Ok

/-- The columns of a row format record (R57, R187). -/
def FormatFields (r : List Byte) (columns : List Column) : Prop :=
  columns.length = byteAt r 0 ∧ FormatOk columns ∧
    ∀ k c, columns[k]? = some c → ColumnFields r (1 + 7 * k) c

/-- An optional string number behind a marker byte (R58, R59, R187; the marker's codes are log entry 6). -/
def OptionalString (r : List Byte) (at_ : Nat) (o : Option Nat) : Prop :=
  (byteAt r at_ = 0 ∧ o = none) ∨ (byteAt r at_ = 1 ∧ o = some (wordAt r (at_ + 1)) ∧ wordAt r (at_ + 1) ≤ 1023)

/-- The fields of a present panel record (R58, R187). -/
def PanelFields (r : List Byte) (row : PanelRow) : Prop :=
  [Bus.busA, .busB][byteAt r 1]? = some row.bus ∧ row.address = byteAt r 2 ∧ row.width = wordAt r 3 ∧
    row.height = byteAt r 5 ∧ row.palette = byteAt r 6 ∧ row.background.val = byteAt r 7 ∧ row.busClass = byteAt r 8 ∧
    ((∃ n : Fin 4, byteAt r 9 = n.val ∧ row.dim = .sensor n) ∨ (byteAt r 9 = 4 ∧ row.dim = .fixed (byteAt r 10))) ∧
    [Policy.full, .zones][byteAt r 11]? = some row.policy ∧ row.emergencyFont = byteAt r 12 ∧
    row.emergencyInterval = wordAt r 13 ∧ OptionalString r 15 row.fallback ∧ row.Ok

/-- The kind-specific fields of a zone record (R59, R187). -/
def KindFields (r : List Byte) (kind : ZoneKind) : Prop :=
  (byteAt r 0 = 1 ∧ ∃ board : Fin 8, board.val = byteAt r 10 ∧
      kind = .rows board (byteAt r 11) (byteAt r 12) (byteAt r 13) (byteAt r 14) (byteAt r 15) (byteAt r 16)) ∨
    (byteAt r 0 = 2 ∧ ∃ floor idle, [Priority.normal, .service, .emergency][byteAt r 10]? = some floor ∧
      OptionalString r 14 idle ∧ kind = .message floor (wordAt r 11) (byteAt r 13) idle) ∨
    (byteAt r 0 = 3 ∧ ∃ seconds align, [false, true][byteAt r 10]? = some seconds ∧
      [Align.left, .right, .centre][byteAt r 11]? = some align ∧ kind = .clock seconds align) ∨
    (byteAt r 0 = 4 ∧ kind = .tile (byteAt r 10) (byteAt r 11) (byteAt r 12)) ∨
    (byteAt r 0 = 5 ∧ ∃ align role, [Align.left, .right, .centre][byteAt r 12]? = some align ∧
      [ColourRole.text, .destination, .time, .delayed, .cancelled, .stale, .message, .emergency][byteAt r 13]? =
        some role ∧ kind = .text (wordAt r 10) align role)

/-- The fields of a zone record of a kind other than NONE (R59, R187). -/
def ZoneFields (r : List Byte) (zone : Zone) : Prop :=
  zone.x = wordAt r 1 ∧ zone.y = byteAt r 3 ∧ zone.w = wordAt r 4 ∧ zone.h = byteAt r 6 ∧ zone.font = byteAt r 7 ∧
    [some ColourRole.text, some .destination, some .time, some .delayed, some .cancelled, some .stale, some .message,
      some .emergency, none][byteAt r 8]? = some zone.fill ∧
    [Language.primary, .alternate][byteAt r 9]? = some zone.language ∧ KindFields r zone.kind ∧ zone.Ok

/-! ## Shared words: composing a line -/

/-- The glyph codes of a message text: its own, or those of its alert string in a variant (R77, R106). -/
def codesOf (bank : Bank) (secondary : Bool) : MessageText → List Nat
  | .codes l => l
  | .string n => bank.stringText secondary n

/-- A text set in a font from a start pixel and a top line sets a pixel (R131). -/
def Sets (bank : Bank) (font : Font) (codes : List Nat) (start : Int) (top x y : Nat) : Prop :=
  (SetText.mk font codes start top).sets bank x y = true

/-- A text set in a box by an alignment sets a pixel (R133). -/
def SetsIn (bank : Bank) (font : Font) (codes : List Nat) (align : Align) (boxX boxWidth top x y : Nat) : Prop :=
  Sets bank font codes (alignedStart align boxX boxWidth (bank.textWidth font codes)) top x y

/-- One column of a departure row, drawn from an entry, puts a colour at a pixel: in its box, the field's text, in the
column's role or the entry's shown role (R74, R83, R84). -/
def ColumnPuts (sc : Scene) (row : PanelRow) (zone : Zone) (phase : Phase) (top : Nat) (e : Entry) (x y : Nat)
    (c : Column) (colour : Colour) : Prop :=
  let font := sc.bank.font zone.font
  zone.x + c.xOffset ≤ x ∧ x < zone.x + c.xOffset + c.width ∧
    SetsIn sc.bank font (fieldCodes sc.bank (drawsSecondary zone.language phase) font.digitBase e c.field) c.align
      (zone.x + c.xOffset) c.width top x y ∧
    colour = sc.bank.roleColour row.palette (if c.field = .time then e.role.colourRole else c.role)

/-- The entry that departure row i of a ROWS zone shows: by position with one page, else by the id its row record holds
(R82, R93). -/
def RowShows (sc : Scene) (rt : Option ZoneRuntime) (board : Fin 8) (first pages i : Nat) (e : Entry) : Prop :=
  (pages = 1 ∧ (sc.boards.get board)[first + i]? = some e) ∨
    (pages ≠ 1 ∧ ∃ index snapshot left sid, rt = some (.page index snapshot left) ∧ snapshot[i]? = some (some sid) ∧
      (sc.boards.get board).find? (fun e => decide (e.sid = sid)) = some e)

/-- The content of a zone puts a colour at a pixel of its rectangle, by the kind of the zone (R130). A held text that
has grown wider than its zone starts at the zone's x (R133; R96 read with it, log entry 26). -/
def ContentPuts (sc : Scene) (d : Display) (z : Nat) (row : PanelRow) (zone : Zone) (x y : Nat) (colour : Colour) :
    Prop :=
  let bank := sc.bank
  let rt := d.seq.runtimes.find z
  let secondary := drawsSecondary zone.language d.seq.phase
  let font := bank.font zone.font
  let roleIs (role : ColourRole) : Prop := colour = bank.roleColour row.palette role
  match zone.kind with
  | .rows board format first rows gap pages _ =>
    ∃ i e before c after, i < rows ∧ RowShows sc rt board first pages i e ∧
      zone.y + i * (font.height + gap) ≤ y ∧ y < zone.y + i * (font.height + gap) + font.height ∧
      bank.formats.find format = some (before ++ c :: after) ∧
      ColumnPuts sc row zone d.seq.phase (zone.y + i * (font.height + gap)) e x y c colour ∧
      ∀ c' ∈ after, ∀ other, ¬ColumnPuts sc row zone d.seq.phase (zone.y + i * (font.height + gap)) e x y c' other
  | .message _ _ _ idle =>
    ∃ m own codes role, rt = some (.message m) ∧
      ((∃ n r, m.showing = .slot n ∧ (sc.slots.get n).record? = some r ∧ own = bank.font r.font ∧
          codes = codesOf bank secondary r.text ∧
          role = if r.priority = .emergency then ColourRole.emergency else .message) ∨
        (m.showing = .idle ∧ own = font ∧ role = .message ∧
          ∃ n, idle = some n ∧ codes = bank.stringText secondary n)) ∧
      roleIs role ∧
      (if m.stepTimer = none then
        SetsIn bank own codes .centre zone.x zone.w (zone.textTop own.height) x y
      else Sets bank own codes ((zone.x : Int) + zone.w - m.offset) (zone.textTop own.height) x y)
  | .clock _ align =>
    ∃ drawn, rt = some (.clock drawn) ∧ roleIs .text ∧
      SetsIn bank font (clockTextCodes bank secondary font.digitBase drawn) align zone.x zone.w
        (zone.textTop font.height) x y
  | .tile first _ _ =>
    ∃ tile, bank.tiles.find (match rt with | some (.tile current _) => current | _ => first) = some tile ∧
      x - zone.x < 32 ∧ y - zone.y < 16 ∧ colour.val ≠ 0 ∧
      colour.val =
        (let byte := byteAt (((if y - zone.y < 8 then tile.upper else tile.lower)).getD [])
            ((y - zone.y) % 8 * 16 + (x - zone.x) / 2)
         if (x - zone.x) % 2 = 0 then byte / 16 else byte % 16)
  | .text string align role =>
    roleIs role ∧ SetsIn bank font (bank.stringText secondary string) align zone.x zone.w (zone.textTop font.height) x y

/-- A zone puts a colour at a pixel: within its rectangle, its content's, or else its fill's (R75, R76, R130). -/
def ZonePuts (sc : Scene) (d : Display) (x y : Nat) (e : Nat × Fin 16 × PanelRow × Zone) (colour : Colour) : Prop :=
  let zone := e.2.2.2
  zone.x ≤ x ∧ x < zone.x + zone.w ∧ zone.y ≤ y ∧ y < zone.y + zone.h ∧
    (ContentPuts sc d e.1 e.2.2.1 zone x y colour ∨
      (∀ other, ¬ContentPuts sc d e.1 e.2.2.1 zone x y other) ∧
        ∃ role, zone.fill = some role ∧ colour = sc.bank.roleColour e.2.2.1.palette role)

end Sys2Proof.Machine.Claims

open Sys2Proof.Machine.Claims

/-! ## The machine as a whole -/

/-- A step takes the command at the front of the queue and executes it with the queue's rest; on an empty queue the
coder idles (the model's own, log entry 5). -/
def Obligations.StepTakesTheFrontCommand : Prop :=
  (∀ (c : Instr) (q : List Instr) (s : State), s.pending = c :: q → step s = exec c (s.withPending q)) ∧
    ∀ s : State, s.pending = [] → step s = .next s

/-- Every command that can be sent completes in every state, and changes only the parts of the state that `reach` lists
for it: the frame of all 75 commands. That no command stops is log entry 20; that a row which names a part of a larger
event, or an event that cannot come about in a state, completes there too is the model's (log entries 4 and 11). -/
def Obligations.EveryCommandCompletesInItsFrame : Prop :=
  ∀ (c : Instr) (s : State), c.wf = true → ∃ t, exec c s = .next t ∧ OnlyChanges (reach c) s t

/-- The state after reset is safe, and holds the values the reset rules of the blocks give (R24, R35, R66, R104, R117,
R118, R128, R143, R164, R175, R177).
An external reset, in any state, gives the reset state, but for what stands on the pins (contact levels, straps,
clock lines), which each block reads (R117, R143, R165, R182; the straps as log entry 28 has it, DEDUCED), and the
model's own queue and free-byte counter.
Values that the manual leaves open at reset are the model's (log entry 2). -/
def Obligations.ExternalResetGivesTheSafeResetState : Prop :=
  (Safe State.reset ∧ State.reset.clock = ⟨0, .unset, 0⟩ ∧ (∀ b, State.reset.boards.get b = []) ∧
    State.reset.tables = ⟨Bank.empty, Bank.empty, .a, .clean, false, none⟩ ∧ (∀ i, State.reset.slots.get i = .free) ∧
    (∀ n, (State.reset.contacts.get n).state = .disabled ∧ (State.reset.contacts.get n).latch = none) ∧
    State.reset.disp.seq.phase = .primary ∧ State.reset.disp.seq.langCount = 0 ∧
    (∀ p, State.reset.disp.lines.dirty.get p = [] ∧ State.reset.disp.lines.cursor.get p = 0 ∧
      (State.reset.disp.panels.get p).state = .absent) ∧
    (∀ n, (State.reset.light.groups.get n) = ⟨200, .fallback⟩) ∧ State.reset.mgmt.mode = .run ∧
    State.reset.mgmt.refusals = 0 ∧
    State.reset.settings.values =
      [60, 300, 300, 20, 120, 6, 60, 30, 500000, 500000, 1, 1, 40, 200, 0, 1, 0, 50, 65535, 1006, 0, 1, 0, 50, 65535,
        1007, 0, 1, 0, 50, 65535, 1008, 0, 1, 0, 50, 65535, 1009]) ∧
    (∀ s : State, ∃ t, exec .externalReset s = .next t ∧
    OnlyChanges [.contacts, .bus .busA, .bus .busB, .straps, .pins, .freeCount, .pending] State.reset t ∧
    (∀ n, t.contacts.get n = ⟨(s.contacts.get n).raw, (s.contacts.get n).raw, none, .disabled, none, none⟩) ∧
    (∀ b, t.buses.get b = ⟨if s.pins.clockLow.get b then .held else .idle, none, none, 15, none, none⟩) ∧
    t.trunk.node = s.pins.nodeStraps ∧ t.trunk.rateCode = s.pins.rateStraps ∧ t.pins = s.pins)

/-- A RESTART keeps the two banks, which of them is active, the settings, the contacts' levels and the pins; every other
block starts afresh: clock, boards, slots, contacts, mode, flags, sensors and groups, buses, language phase, views, zone
runtimes, panels and lines, and the Trunk Port, which reads its straps again and sends nothing but the RESTART of a
broadcast, at the rate just read, the strap code read as log entry 28 has it (DEDUCED: RATE_1 its upper bit) (R24, R25,
R35, R66, R90, R104, R105, R117, R126, R128, R143, R164, R165, R175, R182). -/
def Obligations.RestartKeepsTablesAndSettings : Prop :=
  ∀ (broadcast : Bool) (s : State), ∃ t, exec (.restart broadcast) s = .next t ∧
    t.settings = s.settings ∧ t.tables.bankA = s.tables.bankA ∧ t.tables.bankB = s.tables.bankB ∧
    t.tables.active = s.tables.active ∧ t.tables.swapPending = false ∧ t.tables.copyTimer = none ∧
    t.tables.standby = (if s.tables.standby = .copying then .faulted else s.tables.standby) ∧
    t.clock = ⟨0, .unset, 0⟩ ∧ (∀ b, t.boards.get b = []) ∧ (∀ i, t.slots.get i = .free) ∧
    (∀ n, (t.contacts.get n).raw = (s.contacts.get n).raw ∧ (t.contacts.get n).filtered = (s.contacts.get n).filtered ∧
      (t.contacts.get n).filterTimer = (s.contacts.get n).filterTimer ∧ (t.contacts.get n).latch = none ∧
      if (s.settings.contacts.get n).enable then
        (t.contacts.get n).state = .settling ∧
          (t.contacts.get n).settlingTimer = some (s.settings.contacts.get n).filter
      else (t.contacts.get n).state = .disabled ∧ (t.contacts.get n).settlingTimer = none) ∧
    t.mgmt.mode = .run ∧ t.mgmt.flags = Flags.clear ∧ t.mgmt.refusal = none ∧ t.mgmt.refusals = 0 ∧
    t.trunk =
      ⟨.hunt, .hunt, if broadcast then [[0x5F, 0, 0, 0xA1]] else [], [], [], none, .relay,
        if broadcast then
          some ⟨[⟨0x5F, true⟩, ⟨0, false⟩, ⟨0, false⟩, ⟨0xA1, false⟩], rateOf s.pins.rateStraps⟩ else none,
        none, 0, false, 0, 0, s.pins.nodeStraps, s.pins.rateStraps⟩ ∧
    (∀ n, t.light.sensors.get n = ⟨false, 0, 0, .good, 0⟩ ∧
      t.light.groups.get n = ⟨s.settings.fallbackLevel, .fallback⟩) ∧
    (∀ b, t.buses.get b = ⟨if s.pins.clockLow.get b then .held else .idle, none, none, 15, none, none⟩) ∧
    t.disp.seq.phase = .primary ∧ t.disp.seq.langCount = 0 ∧
    (∀ p row, s.scene.panel p = some row → t.disp.seq.views.get p = some .normal) ∧ DisplayStarted t ∧
    OnlyChanges (reach (.restart broadcast)) s t

/-- The bank that every consumer reads changes at the application of a pending swap and at an external reset, and by no
other command (R46, R66). -/
def Obligations.ActiveBankChangesOnlyAtASwap : Prop :=
  ∀ (c : Instr) (s t : State), exec c s = .next t →
    t.tables.activeBank = s.tables.activeBank ∨
      (s.tables.swapPending = true ∧ (c = .swapApplied ∨ c = .timebaseSecond) ∧
        t.tables.activeBank = s.tables.standbyBank) ∨
      (c = .externalReset ∧ t.tables.activeBank = Bank.empty)

/-- A raised sticky flag stays raised, but for the commands that build a DEVICE report or reset the coder: a QUERY for
DEVICE, a RESTART, an external reset, and a cell on TRUNK_IN, or the last character of one, that carries one of the
first two to this coder (R10, R16, R179). -/
def Obligations.RaisedFlagsStandUntilReported : Prop :=
  ∀ (c : Instr) (s t : State), c.wf = true → exec c s = .next t →
    StillRaised s.mgmt.flags t.mgmt.flags ∨ c = .queryDevice 0 ∨ (∃ b, c = .restart b) ∨ c = .externalReset ∨
      (∃ cell, c = .trunkCell cell ∧ ClearsFlags s cell) ∨
      ∃ ch chars, c = .characterArrival .trunkIn ch ∧ ch.marker = false ∧ ch.goodStop = true ∧
        s.trunk.rxTrunk = .collect chars ∧ ClearsFlags s (chars ++ [ch.data])

/-! ## Invariants that every step keeps -/

/-- The clock, the settings and the light stay in their ranges (R26, R177, R156, R158), over sound tables. -/
def Obligations.EveryStepKeepsClockSettingsAndLightInRange : Prop :=
  ∀ s t : State, s.clock.Ok → s.settings.Ok → s.tables.Ok → LightOk s → step s = .next t →
    t.clock.Ok ∧ t.settings.Ok ∧ LightOk t

/-- Boards keep their order, their uniqueness, their size and their fields' ranges (R1, R2, R4). -/
def Obligations.EveryStepKeepsBoardsInOrder : Prop :=
  ∀ s t : State, BoardsOk s → step s = .next t → BoardsOk t

/-- The banks stay as loading keeps them, every record in the ranges its table's checks ensure and the pool usage that
of the strings held, and the standby state agrees with the copy timer and the swap mark (R47, R48, R51 to R59, R60 to
R63). -/
def Obligations.EveryStepKeepsTablesSound : Prop :=
  ∀ s t : State, s.tables.Ok → step s = .next t → t.tables.Ok

/-- A contact's slot is LOCKED exactly while its latch is set, and holds its alert (R106, R110, R114, R115); an ACTIVE
slot's remaining duration is at least a second (R109); contact states and timers agree (R112, R113, R117). -/
def Obligations.EveryStepKeepsSlotsAndContactsTogether : Prop :=
  ∀ s t : State, SlotsOk s → ContactsOk s → step s = .next t → SlotsOk t ∧ ContactsOk t

/-- Every present panel holds the view that R120 chooses from the state as it stands, and a synthetic message zone runs
exactly in EMERGENCY (R90, R101, R120). -/
def Obligations.EveryStepKeepsViewsChosen : Prop :=
  ∀ s t : State, ViewsOk s → step s = .next t → ViewsOk t

/-- Dirty lines and cursors stay below their panel's height, and panel states agree with counts and probe timers (R124,
R127, R142, R150, R152). -/
def Obligations.EveryStepKeepsLinesAndPanels : Prop :=
  ∀ s t : State, s.tables.Ok → LinesOk s → PanelsOk s → step s = .next t → LinesOk t ∧ PanelsOk t

/-- The buses keep their shape and their frames stand where the active bank puts their panels (R140, R145, R147, R148,
R151, R154, R189). -/
def Obligations.EveryStepKeepsBusesAndFrames : Prop :=
  ∀ s t : State, LinesOk s → BusesOk s → FramesOk s → step s = .next t → BusesOk t ∧ FramesOk t

/-- The Trunk Port's queues hold at most 4 good cells, its receivers stand part-way through a cell, RETURN_OUT is busy
exactly while a return queue holds a cell, and the two lines send the cells that the queues give them, marked and at the
trunk rate, the rate code read as log entry 28 has it (DEDUCED) (R165 to R167, R170 to R173). -/
def Obligations.EveryStepKeepsTheTrunkSound : Prop :=
  ∀ s t : State, BoardsOk s → TrunkOk s → step s = .next t → TrunkOk t

/-- A safe state stays safe at every step. -/
def Obligations.EveryStepKeepsTheStateSafe : Prop :=
  ∀ s t : State, Safe s → step s = .next t → Safe t

/-! ## Departure boards -/

/-- R6: an ENTRY with a bad field is refused with BAD_FIELD and leaves everything else as it was; any other is not
refused. -/
def Obligations.EntryWithABadFieldIsRefused : Prop :=
  ∀ (body : EntryBody) (s : State), body.wf = true →
    (EntryBad body → ∃ t, exec (.entry body) s = .next t ∧ RefusedOnly 0x10 .badField s t) ∧
      (¬EntryBad body → ∃ t, exec (.entry body) s = .next t ∧ s.agrees t .refusal)

/-- R7: an ENTRY whose id stands on the board replaces that entry in its place by key and id, and gives the notice of
R7. -/
def Obligations.EntryReplacesTheEntryOfItsId : Prop :=
  ∀ (body : EntryBody) (b : Fin 8) (s : State), body.wf = true → ¬EntryBad body → body.board = b.val →
    BoardOk (s.boards.get b) → (∃ x ∈ s.boards.get b, x.sid = body.sid) →
    ∃ t e, exec (.entry body) s = .next t ∧ Posts s.settings s.clock body e ∧
      (t.boards.get b).Perm (e :: (s.boards.get b).filter fun x => decide (x.sid ≠ body.sid)) ∧
      (t.boards.get b).Pairwise OrdersBefore ∧ OtherBoards b s t ∧
      (let i := place body.sid (s.boards.get b)
       let j := place body.sid (t.boards.get b)
       Noticed
        (if i ≠ j then some ⟨b, some (min i j, max i j), [body.sid]⟩
          else if ((s.boards.get b).any fun x => decide (x.sid = body.sid) && e.sameDrawn x) = true then none
          else some ⟨b, none, [body.sid]⟩) s t) ∧
      OnlyChanges [.boards, .dirty, .runtimes] s t

/-- R8: an ENTRY with a new id on a board with room is inserted in its place by key and id, and gives the notice of R8.
R9: on a full board, of it and the last entry, the later in order is lost, and BOARD_OVERFLOW of that board alone is
raised. -/
def Obligations.NewEntryIsInsertedOrTheLaterIsLost : Prop :=
  ∀ (body : EntryBody) (b : Fin 8) (s : State), body.wf = true → ¬EntryBad body → body.board = b.val →
    BoardOk (s.boards.get b) → (∀ x ∈ s.boards.get b, x.sid ≠ body.sid) →
    ((s.boards.get b).length < 16 →
      ∃ t e, exec (.entry body) s = .next t ∧ Posts s.settings s.clock body e ∧
        (t.boards.get b).Perm (e :: s.boards.get b) ∧ (t.boards.get b).Pairwise OrdersBefore ∧ OtherBoards b s t ∧
        Noticed (some ⟨b, some (place body.sid (t.boards.get b), (s.boards.get b).length), []⟩) s t ∧
        OnlyChanges [.boards, .dirty, .runtimes] s t) ∧
    ((s.boards.get b).length = 16 →
      ∃ t e last, exec (.entry body) s = .next t ∧ Posts s.settings s.clock body e ∧
        (s.boards.get b)[15]? = some last ∧ OtherBoards b s t ∧
        (OrdersBefore last e → t.boards.get b = s.boards.get b ∧ Noticed none s t) ∧
        (¬OrdersBefore last e →
          (t.boards.get b).Perm (e :: (s.boards.get b).take 15) ∧ (t.boards.get b).Pairwise OrdersBefore ∧
            Noticed (some ⟨b, some (place body.sid (t.boards.get b), 15), [last.sid]⟩) s t) ∧
        (∀ b', t.mgmt.flags.overflow.get b' = if b' = b then true else s.mgmt.flags.overflow.get b') ∧
        { t.mgmt.flags with overflow := s.mgmt.flags.overflow } = s.mgmt.flags ∧
        OnlyChanges [.boards, .dirty, .runtimes, .flags] s t)

/-- R11 and R12: a WITHDRAW takes one entry off its board, a CLEAR_BOARD every entry; each gives its notice, and a bad
board or an id of 0 is refused. -/
def Obligations.WithdrawAndClearBoardRemoveEntries : Prop :=
  (∀ (board sid : Nat) (s : State), (7 < board ∨ sid = 0) →
      ∃ t, exec (.withdraw board sid) s = .next t ∧ RefusedOnly 0x11 .badField s t) ∧
    (∀ (b : Fin 8) (sid : Nat) (s : State), sid ≠ 0 → (∀ x ∈ s.boards.get b, x.sid ≠ sid) →
      exec (.withdraw b.val sid) s = .next s) ∧
    (∀ (b : Fin 8) (sid i : Nat) (s : State), sid ≠ 0 → positionOf sid (s.boards.get b) = some i →
      ∃ t, exec (.withdraw b.val sid) s = .next t ∧ t.boards.get b = (s.boards.get b).eraseIdx i ∧ OtherBoards b s t ∧
        Noticed (some ⟨b, some (i, (s.boards.get b).length - 1), [sid]⟩) s t ∧
        OnlyChanges [.boards, .dirty, .runtimes] s t) ∧
    (∀ (board : Nat) (s : State), 7 < board →
      ∃ t, exec (.clearBoard board) s = .next t ∧ RefusedOnly 0x12 .badField s t) ∧
    ∀ (b : Fin 8) (s : State), ∃ t, exec (.clearBoard b.val) s = .next t ∧ t.boards.get b = [] ∧ OtherBoards b s t ∧
      Noticed (if s.boards.get b = [] then none
        else some ⟨b, some (0, (s.boards.get b).length - 1), (s.boards.get b).map Entry.sid⟩) s t ∧
      OnlyChanges [.boards, .dirty, .runtimes] s t

/-- R38 to R40: the shown field and role of an entry, by the first case that holds, with signed differences of seconds;
a countdown shown lies from 1 to the limit.
R41, R42: the digits a clock time and a countdown are drawn in: hh and mm of the service second with leading zeros,
hours mod 24, and the minutes without one; each is a decimal numeral of the number it shows. -/
def Obligations.TimeFieldFollowsTheFirstCaseAndIsSpelled : Prop :=
  (∀ (st : Settings) (clock : StationClock) (e : Entry),
    derive st clock e =
        (if e.status = .cancelled then (.cancelled, .cancelled)
        else if e.status = .held then (.held, .time)
        else if st.stalePeriod ≠ 0 ∧ st.stalePeriod < e.age then (.staleClock e.sched, .stale)
        else if e.status = .arriving then (.arriving, delayOf st.delayThreshold e)
        else if clock.state = .unset ∨ clock.state = .held then (.clock (keyOf e), delayOf st.delayThreshold e)
        else (countdownOf st.countdownLimit (keyOf e) clock.value, delayOf st.delayThreshold e)) ∧
      ∀ m, (derive st clock e).1 = .minutes m → 1 ≤ m ∧ m ≤ st.countdownLimit) ∧
    ((∀ base x : Nat, ∃ a b c d : Nat, a < 10 ∧ b < 10 ∧ c < 10 ∧ d < 10 ∧ 10 * a + b = x / 3600 % 24 ∧
      10 * c + d = x % 3600 / 60 ∧ clockCodes base x = [base + a, base + b, base + 10, base + c, base + d]) ∧
    ∀ m : Nat, 1 ≤ m → m ≤ 99 →
      (∀ digit ∈ decimalDigits m, digit < 10) ∧ (decimalDigits m).foldl (fun n digit => 10 * n + digit) 0 = m ∧
        (decimalDigits m).head? ≠ some 0)

/-! ## Station clock -/

/-- R29, with R14 to R16: a TIME above 107,999 is refused; any other sets the clock SYNCED at it, starts a new day where
it goes back by more than 10,800 s on a clock that is not UNSET, and otherwise runs expiry and derives every entry
again. Each board gives its notice, that of a new day naming every id it held, and the CLOCK zones look at the clock
(R17, R18, R32).
R30, R31: a rising edge on MINUTE_PULSE, by the state and the seconds of the clock; where it changes value or state, the
boards take the clock change. That such a pulse runs expiry only where the value changed is log entry 13 (DEDUCED). -/
def Obligations.TimeAndMinutePulseSetTheClock : Prop :=
  (∀ (v : Nat) (s : State), 107999 < v → ∃ t, exec (.time v) s = .next t ∧ RefusedOnly 0x18 .badField s t) ∧
    (∀ (v : Nat) (s : State), v ≤ 107999 →
      ∃ t, exec (.time v) s = .next t ∧ t.clock = ⟨v, .synced, 0⟩ ∧
        (if s.clock.state ≠ .unset ∧ v + 10800 < s.clock.value then
          (∀ b, t.boards.get b = []) ∧ t.mgmt.flags = { s.mgmt.flags with newDay := true } ∧
            t.disp = clockZones t.scene
              (noticesTaken (fun b => changeNotice b (s.boards.get b) (fun _ => true) fun _ => false) s t)
        else BoardsAfterChange true s t ∧ t.mgmt.flags = s.mgmt.flags) ∧
        OnlyChanges [.clock, .boards, .dirty, .runtimes, .flags] s t) ∧
    (∀ s : State, s.clock.state = .unset → exec .minutePulse s = .next s) ∧
    (∀ s : State, s.clock.state = .held → exec .minutePulse s = .next { s with clock := { s.clock with age := 0 } }) ∧
    (∀ s : State, s.clock.state = .synced ∨ s.clock.state = .drifting → 21 ≤ s.clock.value % 60 →
      s.clock.value % 60 ≤ 39 →
      exec .minutePulse s =
        .next { s with mgmt := { s.mgmt with flags := { s.mgmt.flags with pulseDiscord := true } } }) ∧
    ∀ s : State, s.clock.Ok → s.clock.state = .synced ∨ s.clock.state = .drifting →
      (s.clock.value % 60 ≤ 20 ∨ 40 ≤ s.clock.value % 60) →
      ∃ t, exec .minutePulse s = .next t ∧
        t.clock =
          (if s.clock.value % 60 ≤ 20 then ⟨s.clock.value - s.clock.value % 60, .synced, 0⟩
          else if 107999 < s.clock.value - s.clock.value % 60 + 60 then ⟨107999, .held, 0⟩
          else ⟨s.clock.value - s.clock.value % 60 + 60, .synced, 0⟩) ∧
        (if t.clock.value = s.clock.value ∧ t.clock.state = s.clock.state then t.boards = s.boards ∧ t.disp = s.disp
        else BoardsAfterChange (decide (t.clock.value ≠ s.clock.value) && decide (t.clock.state = .synced)) s t) ∧
        OnlyChanges [.clock, .boards, .dirty, .runtimes] s t

/-- R27, R28: what a timebase second does to the clock, and CLOCK_DRIFTING as the second that brings the synchronisation
age of a SYNCED clock to 900 (a row of its own by log entry 4). -/
def Obligations.SecondAdvancesTheClock : Prop :=
  (∀ s : State, ∃ t, exec .timebaseSecond s = .next t ∧ t.clock.age = min 65535 (s.clock.age + 1) ∧
      (s.clock.state = .unset ∨ s.clock.state = .held → t.clock.value = s.clock.value ∧ t.clock.state = s.clock.state) ∧
      (s.clock.state = .synced ∨ s.clock.state = .drifting →
        if s.clock.value < 107999 then
          t.clock.value = s.clock.value + 1 ∧
            t.clock.state = if s.clock.state = .drifting ∨ 900 ≤ t.clock.age then .drifting else .synced
        else t.clock.value = s.clock.value ∧ t.clock.state = .held)) ∧
    ∀ s : State, s.clock.state = .synced → s.clock.age = 899 → s.clock.value < 107999 →
      ∃ t, exec .clockDrifting s = .next t ∧ t.clock = ⟨s.clock.value + 1, .drifting, 900⟩ ∧
        BoardsAfterChange true s t ∧ OnlyChanges [.clock, .boards, .dirty, .runtimes] s t

/-- R13 to R15: at a timebase second the entries that have run out leave where the clock advances and runs, every other
entry keeps its posted fields and grows older by a second up to 65,535, and where the clock has changed every entry
shows what its derivation gives. With no swap pending, every departure row that shows or draws another entry than
before, or draws the same one otherwise, has its lines marked on a panel in NORMAL (R18, R19, R43, R85 to R87, R93).
R13: the second that carries an entry's age past the stale period derives it again, in the STALE colour where its status
is neither CANCELLED nor HELD, touches no other entry, and gives a notice that names it where it then shows otherwise (a
row of its own by log entry 4). -/
def Obligations.SecondsAgeExpireAndStaleEntries : Prop :=
  (∀ s : State, BoardsOk s → ∃ t, exec .timebaseSecond s = .next t ∧
    (s.tables.swapPending = false → s.tables.activeBank.zones.wf → RowsFollowBoards s t) ∧ ∀ b,
    (t.boards.get b).map unshown =
        (((s.boards.get b).filter fun e =>
          !(decide (t.clock.value ≠ s.clock.value) && (decide (t.clock.state = .synced) || decide (t.clock.state = .drifting)) &&
            gone s.settings t.clock.value e)).map fun e => unshown { e with age := min 65535 (e.age + 1) }) ∧
      (t.clock.value ≠ s.clock.value ∨ t.clock.state ≠ s.clock.state →
        ∀ e ∈ t.boards.get b, (e.field, e.role) = derive s.settings t.clock e)) ∧
    (∀ (b : Fin 8) (x : Entry) (s : State), BoardOk (s.boards.get b) → x ∈ s.boards.get b → s.settings.stalePeriod ≠ 0 →
    x.age = s.settings.stalePeriod → x.age < 65535 →
    ∃ t, exec (.stalePeriodPassed b x.sid) s = .next t ∧
      t.boards.get b = (s.boards.get b).map (fun e =>
        if e.sid = x.sid then derived s.settings s.clock { e with age := e.age + 1 } else e) ∧
      (x.status = .normal ∨ x.status = .arriving →
        derived s.settings s.clock { x with age := x.age + 1 } =
          { x with age := x.age + 1, field := .staleClock x.sched, role := .stale }) ∧
      OtherBoards b s t ∧
      Noticed (if derive s.settings s.clock { x with age := x.age + 1 } = (x.field, x.role) then none
        else some ⟨b, none, [x.sid]⟩) s t ∧
      OnlyChanges [.boards, .dirty, .runtimes] s t)

/-- R91, R104, R109, R119, R127, R152, R173: the counts that follow a timebase second. A message duration runs down by
one and frees its slot at its last second; the language count rises by one, or flips the phase at the language dwell;
the silence timer rises by one up to 65,535, and SILENT is set where it reaches a limit that is not 0, the views then
chosen again (`ViewsRechosen`; the row SILENT is that part of the second alone, log entry 4). With no swap pending, and
views as chosen before it, each panel whose view the second changes has every line marked (for a change into BLANK too,
log entry 25, DEDUCED; the same of SILENT) and its view command by R121, and each other keeps its command. With no swap
pending a FAULT panel's probe timer runs down by one and at its last second sets the probe-due mark, and with a refresh
cycle each ONLINE panel has its next lines marked and its cursor moved past them, every other cursor staying. With no
swap pending and no duration ending, the dwells run down by one, a page record VACANT where its entry leaves the board,
and act at their last second, a message zone's as MESSAGE_DWELL_EXPIRY does. (That over boards in order, views as
chosen, and a zone table in canonical form; the order of the blocks within a second is log entry 3.) -/
def Obligations.SecondStepsTheCounts : Prop :=
  (∀ s : State, ∃ t, exec .timebaseSecond s = .next t ∧
      (∀ i, t.slots.get i =
        match s.slots.get i with
        | .active r (some n) => if n ≤ 1 then .free else .active r (some (n - 1))
        | slot => slot) ∧
      (if s.settings.languageDwell ≤ s.disp.seq.langCount + 1 then
        t.disp.seq.phase = (if s.disp.seq.phase = .primary then .secondary else .primary) ∧ t.disp.seq.langCount = 0
      else t.disp.seq.phase = s.disp.seq.phase ∧ t.disp.seq.langCount = s.disp.seq.langCount + 1) ∧
      t.trunk.silence = min 65535 (s.trunk.silence + 1) ∧
      (t.trunk.silent = true ↔ s.trunk.silent = true ∨
        (s.settings.silenceLimit ≠ 0 ∧ s.settings.silenceLimit ≤ t.trunk.silence)) ∧
      (s.tables.swapPending = false → ∀ p,
        (∃ command, t.disp.panels.get p = { s.disp.panels.get p with
          viewCommand := command
          probeTimer := if (s.disp.panels.get p).state = .fault then
              (s.disp.panels.get p).probeTimer.bind fun n => if n ≤ 1 then none else some (n - 1)
            else (s.disp.panels.get p).probeTimer
          probeDue := (s.disp.panels.get p).probeDue ||
            ((s.disp.panels.get p).state == .fault && (s.disp.panels.get p).probeTimer.any fun n => decide (n ≤ 1)) }) ∧
        (∀ row, s.scene.panel p = some row → (s.disp.panels.get p).state = .online → s.settings.refreshCycle ≠ 0 →
          let k := (row.height + s.settings.refreshCycle - 1) / s.settings.refreshCycle
          t.disp.lines.cursor.get p = (s.disp.lines.cursor.get p + k) % row.height ∧
            Dirty t p ((List.range k).map fun i => (s.disp.lines.cursor.get p + i) % row.height)) ∧
        (s.scene.panel p = none ∨ (s.disp.panels.get p).state ≠ .online ∨ s.settings.refreshCycle = 0 →
          t.disp.lines.cursor.get p = s.disp.lines.cursor.get p)) ∧
      (s.tables.swapPending = false → ViewsOk s → ViewsChosen t ∧ ∀ p row, s.scene.panel p = some row →
        if t.disp.seq.views.get p = s.disp.seq.views.get p then
          (t.disp.panels.get p).viewCommand = (s.disp.panels.get p).viewCommand
        else Dirty t p (List.range row.height) ∧
          (t.disp.panels.get p).viewCommand =
            if t.disp.seq.views.get p = some .blank then some .blank
            else if s.disp.seq.views.get p = some .blank then some .unblank
            else (s.disp.panels.get p).viewCommand) ∧
      (s.tables.swapPending = false → BoardsOk s → ViewsOk s → s.tables.activeBank.zones.wf →
        (∀ i r n, s.slots.get i = .active r (some n) → 2 ≤ n) →
        (∀ z p row zone board format first rows gap pages dwell index snapshot left,
          s.scene.zone z = some (p, row, zone) → z < 192 → zone.kind = .rows board format first rows gap pages dwell →
          pages ≠ 1 → s.disp.seq.runtimes.find z = some (.page index snapshot left) →
          if left ≤ 1 then
            (let pageCount := max 1 (min pages (((t.boards.get board).length - first + rows - 1) / rows))
             let next := (index + 1) % pageCount
             t.disp.seq.runtimes.find z =
              some (.page next
                ((List.range rows).map fun i => ((t.boards.get board)[first + next * rows + i]?).map Entry.sid) dwell))
          else
            t.disp.seq.runtimes.find z =
              some (.page index
                (snapshot.map fun record => record.filter fun sid =>
                  !(decide (sid ∈ (s.boards.get board).map Entry.sid) &&
                    decide (sid ∉ (t.boards.get board).map Entry.sid))) (left - 1))) ∧
        (∀ z p row zone first last dwell current left, s.scene.zone z = some (p, row, zone) → z < 192 →
          zone.kind = .tile first last dwell → s.disp.seq.runtimes.find z = some (.tile current left) →
          t.disp.seq.runtimes.find z =
            some (if left ≤ 1 then .tile (if current = last then first else current + 1) dwell
              else .tile current (left - 1))) ∧
        ∀ ref pl rt, messagePlace? s.scene s.disp.seq.phase ref = some pl → s.disp.messageRuntime? ref = some rt →
          (rt.dwell = none → t.disp.messageRuntime? ref = some rt) ∧
            ∀ n, rt.dwell = some n →
              (2 ≤ n → t.disp.messageRuntime? ref = some { rt with dwell := some (n - 1) }) ∧
                (n ≤ 1 → ∃ u, exec (.messageDwellExpiry ref) s = .next u ∧
                  t.disp.messageRuntime? ref = u.disp.messageRuntime? ref))) ∧
    ∀ s : State, s.settings.silenceLimit ≠ 0 → s.trunk.silent = false →
      s.settings.silenceLimit ≤ min 65535 (s.trunk.silence + 1) →
      ∃ t, exec .silent s = .next t ∧ t.trunk.silence = min 65535 (s.trunk.silence + 1) ∧ t.trunk.silent = true ∧
        ViewsRechosen s t ∧ OnlyChanges [.silence, .views, .synthetic, .runtimes, .dirty, .panels] s t

/-! ## Zone sequencing -/

/-- R85 to R87 and R93: a board change notice dirties, on a panel whose view is NORMAL, the lines of the rows it reaches
and no others: in a zone with one page the rows from the first position of its range on and the rows of named ids, in a
paged zone the rows whose records hold a named id. (The zone table is in canonical form, as loading keeps it.) -/
def Obligations.NoticeDirtiesExactlyTheRowsItReaches : Prop :=
  ∀ (n : Notice) (sc : Scene) (d : Display) (p : Fin 16) (y : Nat), sc.bank.zones.wf → d.seq.views.get p = some .normal →
    (y ∈ (takeNotice n sc d).lines.dirty.get p ↔
      y ∈ d.lines.dirty.get p ∨
        ∃ (z : Nat) (row : PanelRow) (zone : Zone) (format first rows gap pages dwell i : Nat),
          (z, p, row, zone) ∈ sc.zones ∧ zone.kind = .rows n.board format first rows gap pages dwell ∧ i < rows ∧
            y ∈ zone.rowLines row (sc.bank.font zone.font).height gap i ∧
            ((pages = 1 ∧
                ((∃ f l, n.range = some (f, l) ∧ f ≤ first + i) ∨
                  ∃ e, (sc.boards.get n.board)[first + i]? = some e ∧ e.sid ∈ n.ids)) ∨
              (pages ≠ 1 ∧
                ∃ index snapshot left sid, d.seq.runtimes.find z = some (.page index snapshot left) ∧
                  snapshot[i]? = some (some sid) ∧ sid ∈ n.ids)))

/-- R97: the top group of a zone holds the ACTIVE and LOCKED slots of its panel of the highest priority any of them has,
from the least priority up; the successor of a cursor is the lowest slot of the group above it, and where there is none
the lowest of the group. -/
def Obligations.RotationServesTheTopGroupInTurn : Prop :=
  ∀ (slots : Vec Slot 8) (p : Fin 16) (floor : Priority) (cursor : Fin 8),
    (∀ i, i ∈ topGroup slots p floor ↔
      ∃ r, (slots.get i).record? = some r ∧ r.mask.getLsbD p.val = true ∧ floor.rank ≤ r.priority.rank ∧
        ∀ j r', (slots.get j).record? = some r' → r'.mask.getLsbD p.val = true → r'.priority.rank ≤ r.priority.rank) ∧
      (successor cursor (topGroup slots p floor) = none ↔ topGroup slots p floor = []) ∧
      ∀ s, successor cursor (topGroup slots p floor) = some s →
        s ∈ topGroup slots p floor ∧
          ((cursor < s ∧ ∀ i ∈ topGroup slots p floor, cursor < i → s ≤ i) ∨
            ∀ i ∈ topGroup slots p floor, i ≤ cursor ∧ s ≤ i)

/-- R92 and R102: on the last second of its dwell a paged zone takes the next page with a fresh snapshot and marks every
row, and a stepping TILE zone takes the next tile, or the first after the last, and marks the tile's lines; each loads
its dwell again, and no other zone and no other line is touched (rows of their own by log entry 4). -/
def Obligations.PagesTurnAndTilesStep : Prop :=
  (∀ (z : Fin 192) (p : Fin 16) (row : PanelRow) (zone : Zone) (board : Fin 8)
      (format first rows gap pages dwell index left : Nat) (snapshot : List (Option Nat)) (s : State),
      s.scene.zone z.val = some (p, row, zone) → zone.kind = .rows board format first rows gap pages dwell →
      s.disp.seq.runtimes.find z.val = some (.page index snapshot left) → left ≤ 1 →
      ∃ t, exec (.pageTurn z) s = .next t ∧
        (let pageCount := max 1 (min pages (((s.boards.get board).length - first + rows - 1) / rows))
         let next := (index + 1) % pageCount
         t.disp.seq.runtimes.find z.val =
          some (.page next
            ((List.range rows).map fun i => ((s.boards.get board)[first + next * rows + i]?).map Entry.sid) dwell)) ∧
        MarksOnly p (fun y => s.disp.seq.views.get p = some .normal ∧
          ∃ i, i < rows ∧ y ∈ zone.rowLines row (s.tables.activeBank.font zone.font).height gap i) s t ∧
        OtherRuntimes (.zone z) s t ∧ OnlyChanges [.runtimes, .dirty] s t) ∧
    ∀ (z : Fin 192) (p : Fin 16) (row : PanelRow) (zone : Zone) (first last dwell current left : Nat) (s : State),
      s.scene.zone z.val = some (p, row, zone) → zone.kind = .tile first last dwell →
      s.disp.seq.runtimes.find z.val = some (.tile current left) → left ≤ 1 →
      ∃ t, exec (.tileStep z) s = .next t ∧
        t.disp.seq.runtimes.find z.val = some (.tile (if current = last then first else current + 1) dwell) ∧
        MarksOnly p (fun y => s.disp.seq.views.get p = some .normal ∧ y ∈ zone.clippedLines row zone.y 16) s t ∧
        OtherRuntimes (.zone z) s t ∧ OnlyChanges [.runtimes, .dirty] s t

/-- R95, R101: a scroll step of a MESSAGE zone, or of the synthetic zone of a panel in EMERGENCY, moves its text by one
pixel and marks its text lines; the step at which the offset reaches the text's width plus the zone's completes the
pass, and the zone moves on from offset 0.
R96 to R98, R101: at the last second of a held text's dwell a MESSAGE zone, or a synthetic zone, moves on (a row of its
own by log entry 4). In both, a slot gives way to the successor of it, which becomes the cursor and begins afresh by its
width with the whole zone marked, or begins again where it is its own successor; an idle string begins again; a slot of
an emptied group gives way to the idle string or to nothing, and in a synthetic zone stays as it is. No other line is
marked, and no other zone touched. -/
def Obligations.MessageTextsScrollAndDwell : Prop :=
  (∀ (ref : MsgZone) (pl : MessagePlace) (rt : MessageRuntime) (interval : Nat) (s : State),
    messagePlace? s.scene s.disp.seq.phase ref = some pl → s.disp.messageRuntime? ref = some rt →
    rt.stepTimer = some interval →
    ∃ t rt', exec (.scrollStep ref) s = .next t ∧ t.disp.messageRuntime? ref = some rt' ∧
      (rt.offset + 1 < pl.shownWidth s.scene rt.showing + pl.width → rt' = { rt with offset := rt.offset + 1 }) ∧
      (pl.shownWidth s.scene rt.showing + pl.width ≤ rt.offset + 1 →
        rt'.offset = 0 ∧ MovesOn pl s.scene { rt with offset := 0 } rt') ∧
      MarksOnly pl.panel (fun y => MarksTaken s pl ∧
        y ∈ if rt'.showing = rt.showing then
            textLinesAt pl (s.tables.activeBank.font (pl.shownFont s.scene rt.showing)).height
          else linesAt pl) s t ∧
      OtherRuntimes ref s t ∧ OnlyChanges [runtimePart ref, .dirty] s t) ∧
    ∀ (ref : MsgZone) (pl : MessagePlace) (rt : MessageRuntime) (left : Nat) (s : State),
    messagePlace? s.scene s.disp.seq.phase ref = some pl → s.disp.messageRuntime? ref = some rt →
    rt.dwell = some left → left ≤ 1 → rt.showing ≠ .empty →
    ∃ t rt', exec (.messageDwellExpiry ref) s = .next t ∧ t.disp.messageRuntime? ref = some rt' ∧
      MovesOn pl s.scene rt rt' ∧
      MarksOnly pl.panel (fun y => MarksTaken s pl ∧ rt'.showing ≠ rt.showing ∧ y ∈ linesAt pl) s t ∧
      OtherRuntimes ref s t ∧ OnlyChanges [runtimePart ref, .dirty] s t

/-- R88, R103: a change of the clock's text marks the text lines of exactly the CLOCK zones whose text it changes, on
panels in NORMAL, and leaves the new text recorded; a timebase second (with no swap pending), a TIME, a MINUTE_PULSE and
CLOCK_DRIFTING that change the clock do so.
R88, R104, R122: at the second that brings its count to the language dwell the phase flips, its count restarts, and
every line of every ALTERNATE zone of every NORMAL panel is marked, every line of a panel in FALLBACK, and the text
lines of a panel in EMERGENCY that shows a LOCKED alert, and no other line (a row of its own by log entry 4). (The zone
table is in canonical form, as loading keeps it.) -/
def Obligations.ClockAndLanguageChangesMarkTheirZones : Prop :=
  (∀ (sc : Scene) (d : Display), sc.bank.zones.wf →
      (∀ p y, y ∈ (clockZones sc d).lines.dirty.get p ↔ y ∈ d.lines.dirty.get p ∨
        (d.seq.views.get p = some .normal ∧ ∃ z row zone seconds align drawn, (z, p, row, zone) ∈ sc.zones ∧
          zone.kind = .clock seconds align ∧ d.seq.runtimes.find z = some (.clock drawn) ∧
          drawn ≠ clockTextOf sc.clock seconds ∧ y ∈ zone.textLines row (sc.bank.font zone.font).height)) ∧
      ∀ z p row zone seconds align drawn, (z, p, row, zone) ∈ sc.zones → zone.kind = .clock seconds align →
        d.seq.runtimes.find z = some (.clock drawn) →
        (clockZones sc d).seq.runtimes.find z = some (.clock (clockTextOf sc.clock seconds))) ∧
    (∀ (c : Instr) (s : State), s.tables.activeBank.zones.wf →
      ((c = .timebaseSecond ∧ s.tables.swapPending = false) ∨ c = .minutePulse ∨ c = .clockDrifting ∨
        ∃ v, c = .time v) →
      ∃ t, exec c s = .next t ∧ (t.clock.value ≠ s.clock.value ∨ t.clock.state ≠ s.clock.state →
        ∀ z p row zone seconds align drawn, (z, p, row, zone) ∈ s.scene.zones → zone.kind = .clock seconds align →
          s.disp.seq.runtimes.find z = some (.clock drawn) →
          t.disp.seq.runtimes.find z = some (.clock (clockTextOf t.clock seconds)) ∧
            (drawn ≠ clockTextOf t.clock seconds → s.disp.seq.views.get p = some .normal →
              Dirty t p (zone.textLines row (s.tables.activeBank.font zone.font).height)))) ∧
    ∀ s : State, s.settings.languageDwell ≤ s.disp.seq.langCount + 1 →
      ∃ t, exec .languageFlip s = .next t ∧
        t.disp.seq.phase = (if s.disp.seq.phase = .primary then .secondary else .primary) ∧ t.disp.seq.langCount = 0 ∧
        (∀ p y, y ∈ t.disp.lines.dirty.get p ↔ y ∈ s.disp.lines.dirty.get p ∨
          (s.disp.seq.views.get p = some .normal ∧ ∃ z row zone, (z, p, row, zone) ∈ s.scene.zones ∧
            zone.language = .alternate ∧ y ∈ zone.lines row) ∨
          ∃ row, s.scene.panel p = some row ∧
            ((s.disp.seq.views.get p = some .fallback ∧ y < row.height) ∨
              ∃ rt n r, s.disp.seq.views.get p = some .emergency ∧ s.disp.seq.synthetic.get p = some rt ∧
                rt.showing = .slot n ∧ s.slots.get n = .locked r ∧
                y ∈ syntheticTextLines row (s.tables.activeBank.font row.emergencyFont).height)) ∧
        OnlyChanges [.phase, .dirty] s t

/-! ## Messages, contacts and views -/

/-- R107, R108: a MESSAGE whose fields, length, codes and slot pass fills its slot with its record and duration, and the
change is handed on (`SlotHandedOn`: R99, R120, R121); else it is refused by the first check that fails.
R109, R110: the last second of a duration (a row of its own by log entry 4) and a MESSAGE_END free an ACTIVE slot, and
the change is handed on (a view that changes into BLANK marks every line by log entry 25, DEDUCED); a MESSAGE_END of a
FREE slot has no effect, of a LOCKED slot or of none it is refused. -/
def Obligations.MessagesFillAndFreeTheirSlots : Prop :=
  (∀ (body : MessageBody) (s : State),
    ((7 < body.slot ∨ 2 < body.priority ∨ 3 < body.font ∨ body.count = 0 ∨ 120 < body.count) →
        ∃ t, exec (.message body) s = .next t ∧ RefusedOnly 0x20 .badField s t) ∧
      ∀ (i : Fin 8), body.slot = i.val → body.priority ≤ 2 → body.font ≤ 3 → 1 ≤ body.count → body.count ≤ 120 →
        (body.tail.length ≠ 2 * body.count →
          ∃ t, exec (.message body) s = .next t ∧ RefusedOnly 0x20 .badLength s t) ∧
        (body.tail.length = 2 * body.count → (∃ c ∈ wordsOf body.tail, 511 < c) →
          ∃ t, exec (.message body) s = .next t ∧ RefusedOnly 0x20 .badField s t) ∧
        (body.tail.length = 2 * body.count → (∀ c ∈ wordsOf body.tail, c ≤ 511) →
          (s.slots.get i).isLocked = true →
          ∃ t, exec (.message body) s = .next t ∧ RefusedOnly 0x20 .slotLocked s t) ∧
        (MessageTaken body i s →
          ∃ t priority, exec (.message body) s = .next t ∧ priority.rank = body.priority ∧
            t.slots.get i = .active ⟨priority, body.mask, body.font, .codes (wordsOf body.tail)⟩
              (if body.duration = 0 then none else some body.duration) ∧
            OtherSlots i s t ∧ SlotHandedOn i true s t ∧
            OnlyChanges [.slots, .views, .synthetic, .runtimes, .dirty, .panels] s t)) ∧
    (∀ (i : Fin 8) (r : MessageRecord) (left : Nat) (s : State), s.slots.get i = .active r (some left) → left ≤ 1 →
      ∃ t, exec (.messageDurationExpiry i) s = .next t ∧ t.slots.get i = .free ∧ OtherSlots i s t ∧
        SlotHandedOn i false s t ∧
        OnlyChanges [.slots, .views, .synthetic, .runtimes, .dirty, .panels] s t) ∧
    (∀ (i : Fin 8) (r : MessageRecord) (left : Option Nat) (s : State), s.slots.get i = .active r left →
      ∃ t, exec (.messageEnd i.val) s = .next t ∧ t.slots.get i = .free ∧ OtherSlots i s t ∧
        SlotHandedOn i false s t ∧
        OnlyChanges [.slots, .views, .synthetic, .runtimes, .dirty, .panels] s t) ∧
    (∀ (i : Fin 8) (s : State), s.slots.get i = .free → exec (.messageEnd i.val) s = .next s) ∧
    (∀ (i : Fin 8) (r : MessageRecord) (s : State), s.slots.get i = .locked r →
      ∃ t, exec (.messageEnd i.val) s = .next t ∧ RefusedOnly 0x21 .slotLocked s t) ∧
    ∀ (slot : Nat) (s : State), 7 < slot → ∃ t, exec (.messageEnd slot) s = .next t ∧ RefusedOnly 0x21 .badField s t

/-- R99, R101, R106: after a change of a slot every MESSAGE zone, and the synthetic zone of every panel that stays in
EMERGENCY, is judged again: a zone whose slot has left its top group moves to the successor or shows no slot, one that
showed no slot takes the successor of its cursor, a new text in the slot it shows begins afresh, and any other stays as
it is; a zone that moves, or whose text is new, has all its lines marked, and on a panel whose view stays no other line
is. Then the views are chosen again: a panel whose view changes, as by an alert that takes it into EMERGENCY or by the
end of one, does as R121 says (and marks every line into BLANK too, log entry 25, DEDUCED), and a panel whose view stays
keeps its bus record (R94, R101, R120, R121). (The zone table is in canonical form, as loading keeps it.) -/
def Obligations.SlotChangesJudgeMessageZonesAgain : Prop :=
  ∀ (c : Instr) (i : Fin 8) (newText : Bool) (s : State), ChangesSlot s i newText c → s.tables.activeBank.zones.wf →
    ∃ t, exec c s = .next t ∧ SlotHandedOn i newText s t

/-- R112, R114: a change of the raw level starts or stops the filter; where the filter expires the filtered level
follows, and a WATCHING contact with its latch clear that this makes active raises its alert, in either mode, the change
of its slot handed on (`SlotHandedOn`, with log entry 25 for a view that changes into BLANK, DEDUCED). -/
def Obligations.FilteredLevelRaisesTheAlert : Prop :=
  (∀ (n : Fin 4) (level : Level) (s : State), ∃ t, exec (.contactChange n level) s = .next t ∧
      t.contacts.get n =
        (if (s.contacts.get n).raw = level then s.contacts.get n
        else { s.contacts.get n with
          raw := level
          filterTimer := if level = (s.contacts.get n).filtered then none
            else some (s.settings.contacts.get n).filter }) ∧
      OtherContacts n s t ∧ OnlyChanges [.contacts] s t) ∧
    ∀ (n : Fin 4) (time : Nat) (s : State), (s.contacts.get n).filterTimer = some time →
      (s.contacts.get n).raw ≠ (s.contacts.get n).filtered →
      ∃ t, exec (.filterExpiry n) s = .next t ∧
        t.contacts.get n = { s.contacts.get n with
          filtered := (s.contacts.get n).raw, filterTimer := none, latch := (t.contacts.get n).latch } ∧
        ((s.contacts.get n).state = .watching ∧ (s.contacts.get n).latch = none ∧ ActiveAt s n (s.contacts.get n).raw →
          Raises n s t) ∧
        (¬((s.contacts.get n).state = .watching ∧ (s.contacts.get n).latch = none ∧
          ActiveAt s n (s.contacts.get n).raw) → RaisesNothing n s t) ∧
        OtherContacts n s t ∧ OnlyChanges (reach (.filterExpiry n)) s t

/-- R113, R114, R117: a contact that becomes WATCHING, by its enable or at the end of its settling, and a WATCHING
contact whose mode or polarity is set, raises its alert at once where its latch is clear, its mode LEVEL, and it is
active under its settings as they then stand, and else raises nothing; disabling clears a latched alert with its slot,
and the enable already held changes nothing. A slot that changes is handed on (`SlotHandedOn`, with log entry 25 for a
view that changes into BLANK, DEDUCED). R178: each SET writes its own setting and leaves every other as it was. -/
def Obligations.LevelContactsAreJudgedWhenTheyWatch : Prop :=
  (∀ (n : Fin 4) (time : Nat) (s : State), (s.contacts.get n).settlingTimer = some time →
      (s.contacts.get n).latch = none →
      ∃ t, exec (.settlingExpiry n) s = .next t ∧
        t.contacts.get n = { s.contacts.get n with
          state := .watching, settlingTimer := none, latch := (t.contacts.get n).latch } ∧
        ((s.settings.contacts.get n).mode = .level ∧ ActiveAt s n (s.contacts.get n).filtered → Raises n s t) ∧
        (¬((s.settings.contacts.get n).mode = .level ∧ ActiveAt s n (s.contacts.get n).filtered) →
          RaisesNothing n s t) ∧
        OtherContacts n s t ∧ OnlyChanges (reach (.settlingExpiry n)) s t) ∧
    (∀ (n : Fin 4) (v : Nat) (s : State), v ≠ 0 → (s.settings.contacts.get n).enable = false →
      (s.contacts.get n).latch = none →
      ∃ t, exec (.setContactEnable n v) s = .next t ∧
        t.settings = { s.settings with
          contacts := s.settings.contacts.update n fun c => { c with enable := true } } ∧
        t.contacts.get n = { s.contacts.get n with state := .watching, latch := (t.contacts.get n).latch } ∧
        ((s.settings.contacts.get n).mode = .level ∧ ActiveAt s n (s.contacts.get n).filtered → Raises n s t) ∧
        (¬((s.settings.contacts.get n).mode = .level ∧ ActiveAt s n (s.contacts.get n).filtered) →
          RaisesNothing n s t) ∧
        OtherContacts n s t ∧ ClampNoted v 1 s t ∧ OnlyChanges (reach (.setContactEnable n v)) s t) ∧
    (∀ (n : Fin 4) (s : State), (s.settings.contacts.get n).enable = true →
      ∃ t, exec (.setContactEnable n 0) s = .next t ∧
        t.settings = { s.settings with
          contacts := s.settings.contacts.update n fun c => { c with enable := false } } ∧
        t.contacts.get n = { s.contacts.get n with state := .disabled, settlingTimer := none, latch := none } ∧
        ((s.contacts.get n).latch = none → RaisesNothing n s t) ∧
        ((s.contacts.get n).latch ≠ none → t.slots.get (contactSlot n) = .free ∧ OtherSlots (contactSlot n) s t ∧
          SlotHandedOn (contactSlot n) false s t) ∧
        OtherContacts n s t ∧ ClampNoted 0 0 s t ∧ OnlyChanges (reach (.setContactEnable n 0)) s t) ∧
    (∀ (n : Fin 4) (v : Nat) (s : State), (s.settings.contacts.get n).enable = decide (v ≠ 0) →
      ∃ t, exec (.setContactEnable n v) s = .next t ∧ ClampNoted v (min v 1) s t ∧ OnlyChanges [.flags] s t) ∧
    (∀ (n : Fin 4) (v : Nat) (s : State),
      let judged : Prop := (s.contacts.get n).state = .watching ∧ (s.contacts.get n).latch = none ∧ v ≠ 0 ∧
        ActiveAt s n (s.contacts.get n).filtered
      ∃ t, exec (.setContactMode n v) s = .next t ∧
        t.settings = { s.settings with
          contacts := s.settings.contacts.update n fun c => { c with mode := if v = 0 then .edge else .level } } ∧
        t.contacts.get n = { s.contacts.get n with latch := (t.contacts.get n).latch } ∧ (judged → Raises n s t) ∧
        (¬judged → RaisesNothing n s t) ∧
        OtherContacts n s t ∧ ClampNoted v (min v 1) s t ∧ OnlyChanges (reach (.setContactMode n v)) s t) ∧
    ∀ (n : Fin 4) (v : Nat) (s : State), ∃ t,
      let judged : Prop := (s.contacts.get n).state = .watching ∧ (s.contacts.get n).latch = none ∧
        (s.settings.contacts.get n).mode = .level ∧ ActiveAt t n (s.contacts.get n).filtered
      exec (.setContactPolarity n v) s = .next t ∧
        t.settings = { s.settings with
          contacts := s.settings.contacts.update n fun c =>
            { c with polarity := if v = 0 then .activeLow else .activeHigh } } ∧
        t.contacts.get n = { s.contacts.get n with latch := (t.contacts.get n).latch } ∧ (judged → Raises n s t) ∧
        (¬judged → RaisesNothing n s t) ∧
        OtherContacts n s t ∧ ClampNoted v (min v 1) s t ∧ OnlyChanges (reach (.setContactPolarity n v)) s t

/-- R115: an ACK_ALERT of a contact above 3 is refused, of a clear latch has no effect, of a set latch clears it and
frees its slot, the change handed on (`SlotHandedOn`, with log entry 25 for a view that changes into BLANK, DEDUCED),
but for an active LEVEL contact, where it is refused with STILL_ACTIVE. -/
def Obligations.AckAlertClearsAnAlertThatIsOver : Prop :=
  (∀ (contact : Nat) (s : State), 3 < contact →
      ∃ t, exec (.ackAlert contact) s = .next t ∧ RefusedOnly 0x4A .badField s t) ∧
    (∀ (n : Fin 4) (s : State), (s.contacts.get n).latch = none → exec (.ackAlert n.val) s = .next s) ∧
    (∀ (n : Fin 4) (s : State), (s.contacts.get n).latch ≠ none → (s.settings.contacts.get n).mode = .level →
      ActiveAt s n (s.contacts.get n).filtered →
      ∃ t, exec (.ackAlert n.val) s = .next t ∧ RefusedOnly 0x4A .stillActive s t) ∧
    ∀ (n : Fin 4) (s : State), (s.contacts.get n).latch ≠ none →
      ¬((s.settings.contacts.get n).mode = .level ∧ ActiveAt s n (s.contacts.get n).filtered) →
      ∃ t, exec (.ackAlert n.val) s = .next t ∧ t.contacts.get n = { s.contacts.get n with latch := none } ∧
        t.slots.get (contactSlot n) = .free ∧ OtherSlots (contactSlot n) s t ∧ OtherContacts n s t ∧
        SlotHandedOn (contactSlot n) false s t ∧
        OnlyChanges [.contacts, .slots, .views, .synthetic, .runtimes, .dirty, .panels] s t

/-- R118, R120, R121: a MODE that names another mode sets it and the views are chosen again; the mode held changes
nothing, and a value that names no mode is refused. A panel whose view changes has every line marked (R88, R89, R124;
that a change into BLANK does so too is log entry 25, DEDUCED), BLANK pending where it enters BLANK and UNBLANK where it
leaves it; a synthetic zone starts in EMERGENCY and stands in no other view (R101), and on entering NORMAL the paged
zones start again (R94). -/
def Obligations.ModeChoosesTheViewsAgain : Prop :=
  (∀ (value : Nat) (s : State), 2 < value →
      ∃ t, exec (.mode value) s = .next t ∧ RefusedOnly 0x49 .badField s t) ∧
    (∀ (m : DeviceMode) (s : State), s.mgmt.mode = m → exec (.mode m.code) s = .next s) ∧
    ∀ (m : DeviceMode) (s : State), s.mgmt.mode ≠ m →
      ∃ t, exec (.mode m.code) s = .next t ∧ t.mgmt.mode = m ∧ ViewsRechosen s t ∧
        OnlyChanges [.mode, .views, .synthetic, .runtimes, .dirty, .panels] s t

/-! ## Table banks -/

/-- R49, R50: a TABLE_LOAD is refused while the standby bank is COPYING, a swap is pending or the bank is FAULTED; else
its record is judged against the standby bank, and either written there alone, with the bank LOADED, or refused with the
bank FAULTED and nothing written.
R50: a taken record changes the record at its own table and index, and no other; the pool usage moves with strings
alone. -/
def Obligations.TableLoadWritesItsRecordAlone : Prop :=
  (∀ (table index : Nat) (record : List Byte) (s : State),
    (Busy s → ∃ t, exec (.tableLoad table index record) s = .next t ∧ RefusedOnly 0x40 .bankBusy s t) ∧
      (¬Busy s → s.tables.standby = .faulted →
        ∃ t, exec (.tableLoad table index record) s = .next t ∧ RefusedOnly 0x40 .bankFaulted s t) ∧
      (¬Busy s → s.tables.standby ≠ .faulted → ∀ reason,
        loadRecord s.tables.standbyBank table index record = .error reason →
        ∃ t, exec (.tableLoad table index record) s = .next t ∧ t.mgmt.refusal = some (0x40, reason) ∧
          t.mgmt.refusals = min 255 (s.mgmt.refusals + 1) ∧ t.tables = { s.tables with standby := .faulted } ∧
          OnlyChanges [.tables, .refusal] s t) ∧
      (¬Busy s → s.tables.standby ≠ .faulted → ∀ bank,
        loadRecord s.tables.standbyBank table index record = .ok bank →
        ∃ t, exec (.tableLoad table index record) s = .next t ∧ t.tables.standbyBank = bank ∧
          t.tables.standby = .loaded ∧ t.tables.activeBank = s.tables.activeBank ∧ t.tables.active = s.tables.active ∧
          OnlyChanges [.tables] s t)) ∧
    (∀ (bank bank' : Bank) (table index : Nat) (record : List Byte),
    loadRecord bank table index record = .ok bank' → ∀ k,
      (table ≠ 0 ∨ k ≠ index → bank'.fonts.find k = bank.fonts.find k) ∧
        (table ≠ 1 ∨ k ≠ index → bank'.glyphs.find k = bank.glyphs.find k) ∧
        (table ≠ 2 ∨ k ≠ index → bank'.strings.find k = bank.strings.find k) ∧
        (table ≠ 3 ∨ k ≠ index → bank'.palettes.find k = bank.palettes.find k) ∧
        (table ≠ 4 ∨ k ≠ index → bank'.tiles.find k = bank.tiles.find k) ∧
        (table ≠ 5 → bank'.curve = bank.curve) ∧
        (table ≠ 6 ∨ k ≠ index → bank'.formats.find k = bank.formats.find k) ∧
        (table ≠ 7 ∨ k ≠ index → bank'.panels.find k = bank.panels.find k) ∧
        (table ≠ 8 ∨ k ≠ index → bank'.zones.find k = bank.zones.find k) ∧
        (table ≠ 2 → bank'.pool = bank.pool))

/-- R49 to R52, R54 to R56, R187: how a font, glyph, palette, tile or curve record is judged and what it writes: the
index, then the length, then the fields, each refused under its reason; a glyph's width and font come before its row
count, and a width of 0 makes the glyph absent (record lengths are read as log entry 15 says). A number above 8 names no
table. -/
def Obligations.FontToCurveRecordsAreJudged : Prop :=
  ∀ (bank : Bank) (index : Nat) (r : List Byte),
    (∀ table, 8 < table → loadRecord bank table index r = .error .badIndex) ∧
      JudgedInOrder (loadRecord bank 0 index r) (index ≤ 3) (r.length = 4) (FontFields r)
        (fun f => { bank with fonts := bank.fonts.insert index f }) ∧
      (511 < index → loadRecord bank 1 index r = .error .badIndex) ∧
      (index ≤ 511 → r.length < 2 → loadRecord bank 1 index r = .error .badLength) ∧
      (index ≤ 511 → 2 ≤ r.length → byteAt r 1 = 0 →
        loadRecord bank 1 index r =
          if r.length = 2 then .ok { bank with glyphs := bank.glyphs.erase index } else .error .badLength) ∧
      (index ≤ 511 → 2 ≤ r.length → byteAt r 1 ≠ 0 →
        (16 < byteAt r 1 ∨ 3 < byteAt r 0 ∨ bank.fonts.find (byteAt r 0) = none →
            loadRecord bank 1 index r = .error .badField) ∧
          ∀ font, byteAt r 1 ≤ 16 → byteAt r 0 ≤ 3 → bank.fonts.find (byteAt r 0) = some font →
            loadRecord bank 1 index r =
              if r.length = 2 + font.height * ((byteAt r 1 + 7) / 8) then
                .ok { bank with glyphs := bank.glyphs.insert index ⟨byteAt r 1, font.height, r.drop 2⟩ }
              else .error .badLength) ∧
      JudgedInOrder (loadRecord bank 3 index r) (index ≤ 3) (r.length = 56)
        (fun p => p.colours = r.take 48 ∧ p.roles.map Fin.val = (r.drop 48).map BitVec.toNat)
        (fun p => { bank with palettes := bank.palettes.insert index p }) ∧
      (47 < index → loadRecord bank 4 index r = .error .badIndex) ∧
      (index ≤ 47 → r = [] → loadRecord bank 4 index r = .error .badLength) ∧
      (index ≤ 47 → ∀ segment lines, r = segment :: lines →
        (1 < segment.toNat → loadRecord bank 4 index r = .error .badIndex) ∧
          (segment.toNat ≤ 1 → lines.length ≠ 128 → loadRecord bank 4 index r = .error .badLength) ∧
          (segment.toNat ≤ 1 → lines.length = 128 →
            (let old := (bank.tiles.find index).getD ⟨none, none⟩
             let tile : Tile := if segment.toNat = 0 then ⟨some lines, old.lower⟩ else ⟨old.upper, some lines⟩
             loadRecord bank 4 index r = .ok { bank with tiles := bank.tiles.insert index tile }))) ∧
      JudgedInOrder (loadRecord bank 5 index r) (index = 0) (r.length = 1 + 2 * byteAt r 0) (CurveFields r)
        (fun points => { bank with curve := some points })

/-- R49, R50, R57 to R59, R187: how a row format, panel or zone record is judged and what it writes: the index, then the
length, then the fields. A panel record whose present flag is clear, and a zone record of kind NONE, makes its record
absent; a present panel is refused where another panel has its bus and bus address (the codes of the marker bytes are
log entry 6, the lengths of records log entry 15). -/
def Obligations.FormatPanelAndZoneRecordsAreJudged : Prop :=
  ∀ (bank : Bank) (index : Nat) (r : List Byte),
    JudgedInOrder (loadRecord bank 6 index r) (index ≤ 7) (r.length = 1 + 7 * byteAt r 0) (FormatFields r)
        (fun columns => { bank with formats := bank.formats.insert index columns }) ∧
      JudgedInOrder (loadRecord bank 7 index r) (index ≤ 15) (r.length = 18)
        (fun panel : Option PanelRow =>
          match panel with
          | none => byteAt r 0 = 0
          | some row => byteAt r 0 = 1 ∧ PanelFields r row ∧
            ∀ e ∈ bank.panels, e.1 ≠ index → ¬(e.2.bus = row.bus ∧ e.2.address = row.address))
        (fun panel => { bank with panels := bank.panels.write index panel }) ∧
      JudgedInOrder (loadRecord bank 8 index r) (index ≤ 191) (r.length = 17)
        (fun zone : Option Zone =>
          match zone with
          | none => byteAt r 0 = 0
          | some zone => byteAt r 0 ≠ 0 ∧ ZoneFields r zone)
        (fun zone => { bank with zones := bank.zones.write index zone })

/-- R53: a string record of at most 48 codes to the variant, each below 512, is written with its pool share exchanged,
or refused with POOL_FULL where the pool would pass 16,384; with a longer variant or a code of 512 or above it is
refused with BAD_FIELD. R49: an index above 1023 is refused first, then a length that the record's own counts do not
call for. -/
def Obligations.StringLoadKeepsThePoolLimit : Prop :=
  (∀ (bank : Bank) (index : Nat) (primary : List Nat) (secondary : Option (List Nat)),
    index ≤ 1023 → primary.length ≤ 254 → (secondary.getD []).length ≤ 254 →
    (∀ c ∈ primary, c ≤ 65535) → (∀ c ∈ secondary.getD [], c ≤ 65535) →
    ((48 < primary.length ∨ 48 < (secondary.getD []).length ∨ (∃ c ∈ primary, 511 < c) ∨
        ∃ c ∈ secondary.getD [], 511 < c) →
      loadRecord bank 2 index (stringRecord primary secondary) = .error .badField) ∧
    (primary.length ≤ 48 → (secondary.getD []).length ≤ 48 → (∀ c ∈ primary, c ≤ 511) →
      (∀ c ∈ secondary.getD [], c ≤ 511) →
      loadRecord bank 2 index (stringRecord primary secondary) =
        (let old := match bank.strings.find index with
          | some st => st.primary.length + (st.secondary.getD []).length
          | none => 0
         let pool := bank.pool - old + (primary.length + (secondary.getD []).length)
         if 16384 < pool then .error .poolFull
         else .ok { bank with strings := bank.strings.insert index ⟨primary, secondary⟩, pool := pool }))) ∧
    ∀ (bank : Bank) (index : Nat) (r : List Byte),
      (1023 < index → loadRecord bank 2 index r = .error .badIndex) ∧
        (index ≤ 1023 →
          (let p := byteAt r 0
           let q := byteAt r (1 + 2 * p)
           r.length < 2 + 2 * p ∨ r.length ≠ 2 + 2 * p + (if q = 255 then 0 else 2 * q)) →
          loadRecord bank 2 index r = .error .badLength)

/-- R60 to R62: BANK_COPY starts the copy timer at 80 ms, and its expiry makes the standby bank an exact CLEAN copy of
the active one; BANK_CLEAR empties the standby bank; BANK_SWAP sets the swap-pending mark. Each is refused with
BANK_BUSY while the bank is COPYING or a swap is pending, and BANK_SWAP of a FAULTED bank with BANK_FAULTED. -/
def Obligations.BankCommandsWriteTheStandbyBank : Prop :=
  (∀ s : State, Busy s →
      (∃ t, exec .bankCopy s = .next t ∧ RefusedOnly 0x41 .bankBusy s t) ∧
        (∃ t, exec .bankClear s = .next t ∧ RefusedOnly 0x42 .bankBusy s t) ∧
        ∃ t, exec .bankSwap s = .next t ∧ RefusedOnly 0x43 .bankBusy s t) ∧
    (∀ s : State, ¬Busy s →
      exec .bankCopy s = .next { s with tables := { s.tables with standby := .copying, copyTimer := some 80 } } ∧
        (∃ t, exec .bankClear s = .next t ∧ t.tables.standbyBank = Bank.empty ∧ t.tables.standby = .clean ∧
          t.tables.activeBank = s.tables.activeBank ∧ t.tables.active = s.tables.active ∧
          t.tables.swapPending = s.tables.swapPending ∧ t.tables.copyTimer = s.tables.copyTimer ∧
          OnlyChanges [.tables] s t) ∧
        (s.tables.standby = .faulted → ∃ t, exec .bankSwap s = .next t ∧ RefusedOnly 0x43 .bankFaulted s t) ∧
        (s.tables.standby ≠ .faulted →
          exec .bankSwap s = .next { s with tables := { s.tables with swapPending := true } })) ∧
    ∀ (time : Nat) (s : State), s.tables.copyTimer = some time →
      ∃ t, exec .bankCopyComplete s = .next t ∧ t.tables.standbyBank = s.tables.activeBank ∧
        t.tables.activeBank = s.tables.activeBank ∧ t.tables.standby = .clean ∧ t.tables.copyTimer = none ∧
        t.tables.active = s.tables.active ∧ t.tables.swapPending = s.tables.swapPending ∧ OnlyChanges [.tables] s t

/-- R63, R105, R126, R143, R154, R160: a pending swap exchanges the banks; every view, zone runtime and panel of the new
bank starts afresh, with every line dirty, every other panel is ABSENT; the groups take the new curve's levels; a frame
whose panel does not stand in the new bank at its bus and address is orphaned in flight and discarded where coded ahead,
and of a bus nothing else changes, the frame in flight going on as it was. A frame once orphaned stays so, even where a
later swap brings its panel back (log entry 14, DEDUCED: R154 does not describe two swaps during one frame).
The next timebase second applies the swap (SWAP_APPLIED is that part of it alone, log entry 4). -/
def Obligations.PendingSwapIsApplied : Prop :=
  (∀ s : State, s.tables.swapPending = true →
      ∃ t, exec .swapApplied s = .next t ∧ t.tables.activeBank = s.tables.standbyBank ∧
        t.tables.standbyBank = s.tables.activeBank ∧ t.tables.standby = .clean ∧ t.tables.swapPending = false ∧
        ViewsChosen t ∧ DisplayStarted t ∧
        (∀ n, t.light.groups.get n =
          computedLevel t.tables.activeBank.curve s.settings.fallbackLevel (s.light.sensors.get n)) ∧
        (∀ b,
          t.buses.get b = { s.buses.get b with
            inFlight := (t.buses.get b).inFlight, codedAhead := (t.buses.get b).codedAhead } ∧
          ((s.buses.get b).inFlight = none → (t.buses.get b).inFlight = none) ∧
          ∀ f, (s.buses.get b).inFlight = some f →
            ∃ mark, (t.buses.get b).inFlight = some { f with orphaned := mark } ∧
              (mark = true ↔ f.orphaned = true ∨
                ¬∃ row, t.scene.panel f.panel = some row ∧ row.bus = b ∧ row.address = f.address)) ∧
        (∀ b f, (t.buses.get b).codedAhead = some f ↔
          (s.buses.get b).codedAhead = some f ∧ f.keptAhead t.tables.activeBank b = true) ∧
        OnlyChanges (reach .swapApplied) s t) ∧
    ∀ s : State, s.tables.swapPending = true →
      ∃ t, exec .timebaseSecond s = .next t ∧ t.tables.activeBank = s.tables.standbyBank ∧
        t.tables.standbyBank = s.tables.activeBank ∧ t.tables.swapPending = false

/-! ## Settings -/

/-- R177, R178: each SET of a setting that nothing reads at once writes its value brought into range, raises
SETTING_CLAMPED where that changed it (never for a panel mask, which takes the low 16 bits), and changes nothing else.
R44, R178: a SET of the stale period, countdown limit or delay threshold writes its value brought into range, and every
entry of every board is derived again with it at once; the board order stays, and each board gives a notice that names
the entries shown anew (R43).
R178, R186: a SET whose number names no setting is refused with BAD_INDEX, and nothing else changes. -/
def Obligations.SetBringsItsValueIntoRange : Prop :=
  (∀ (v : Nat) (s : State),
    (∃ t, exec (.setDepartureHold v) s = .next t ∧ t.settings = { s.settings with departureHold := min v 600 } ∧
        ClampNoted v (min v 600) s t ∧ OnlyChanges [.settings, .flags] s t) ∧
      (∃ t, exec (.setCancelHold v) s = .next t ∧ t.settings = { s.settings with cancelHold := min v 1800 } ∧
        ClampNoted v (min v 1800) s t ∧ OnlyChanges [.settings, .flags] s t) ∧
      (∃ t, exec (.setLanguageDwell v) s = .next t ∧
        t.settings = { s.settings with languageDwell := max 2 (min v 30) } ∧
        ClampNoted v (max 2 (min v 30)) s t ∧ OnlyChanges [.settings, .flags] s t) ∧
      (∃ t w, exec (.setSilenceLimit v) s = .next t ∧ w = (if v = 0 then 0 else max 10 (min v 600)) ∧
        t.settings = { s.settings with silenceLimit := w } ∧ ClampNoted v w s t ∧ OnlyChanges [.settings, .flags] s t) ∧
      (∃ t w, exec (.setRefreshCycle v) s = .next t ∧ w = (if v = 0 then 0 else max 5 (min v 255)) ∧
        t.settings = { s.settings with refreshCycle := w } ∧ ClampNoted v w s t ∧ OnlyChanges [.settings, .flags] s t) ∧
      (∀ b, ∃ t w, exec (.setBusRate b v) s = .next t ∧ IsRate w ∧ (w ≤ v ∨ w = 250000) ∧
        (∀ r, IsRate r → r ≤ v → r ≤ w) ∧ t.settings = { s.settings with busRate := s.settings.busRate.set b w } ∧
        ClampNoted v w s t ∧ OnlyChanges [.settings, .flags] s t) ∧
      (∃ t, exec (.setHoldLimit v) s = .next t ∧ t.settings = { s.settings with holdLimit := max 5 (min v 255) } ∧
        ClampNoted v (max 5 (min v 255)) s t ∧ OnlyChanges [.settings, .flags] s t) ∧
      ∀ n : Fin 4,
        (∃ t w, exec (.setContactFilter n v) s = .next t ∧ w = max 10 (min (v - v % 10) 2550) ∧
          t.settings = { s.settings with contacts := s.settings.contacts.update n fun c => { c with filter := w } } ∧
          ClampNoted v w s t ∧ OnlyChanges [.settings, .flags] s t) ∧
        (∃ t, exec (.setContactPanelMask n v) s = .next t ∧
          t.settings = { s.settings with
            contacts := s.settings.contacts.update n fun c => { c with mask := BitVec.ofNat 16 v } } ∧
          OnlyChanges [.settings] s t) ∧
        ∃ t, exec (.setContactAlertString n v) s = .next t ∧
          t.settings = { s.settings with
            contacts := s.settings.contacts.update n fun c => { c with alertString := min v 1023 } } ∧
          ClampNoted v (min v 1023) s t ∧ OnlyChanges [.settings, .flags] s t) ∧
    (∀ (v : Nat) (s : State),
    (∃ t w, exec (.setStalePeriod v) s = .next t ∧ w = (if v = 0 then 0 else max 30 (min v 3600)) ∧
        t.settings = { s.settings with stalePeriod := w } ∧ ClampNoted v w s t ∧
        Rederived s t ∧ OnlyChanges [.settings, .flags, .boards, .dirty, .runtimes] s t) ∧
      (∃ t, exec (.setCountdownLimit v) s = .next t ∧
        t.settings = { s.settings with countdownLimit := max 1 (min v 99) } ∧ ClampNoted v (max 1 (min v 99)) s t ∧
        Rederived s t ∧ OnlyChanges [.settings, .flags, .boards, .dirty, .runtimes] s t) ∧
      ∃ t, exec (.setDelayThreshold v) s = .next t ∧ t.settings = { s.settings with delayThreshold := min v 3600 } ∧
        ClampNoted v (min v 3600) s t ∧ Rederived s t ∧
        OnlyChanges [.settings, .flags, .boards, .dirty, .runtimes] s t) ∧
    ∀ (number v : Nat) (s : State), (Instr.setUnknownSetting number v).wf = true →
      ∃ t, exec (.setUnknownSetting number v) s = .next t ∧ RefusedOnly 0x48 .badIndex s t

/-- R153, R178: a SET that turns a bus on writes the setting, and the bus chooses again at once, as two choices (log
entry 7); one that turns it off discards the coded-ahead frame and hands its work back, with no failure counted: a line
is marked again on a panel that still has it, a palette and a view command are pending again unless another command has
been set, and the probe of a FAULT panel is due again: of that panel alone (log entry 16, DEDUCED: R153 says that a
discarded probe sets the mark, also for a panel that a swap has since made STARTING). The enable already held changes
nothing. -/
def Obligations.BusEnableHandsItsCodedAheadFrameBack : Prop :=
  (∀ (b : Bus) (v : Nat) (s : State), s.settings.busEnable.get b = decide (v ≠ 0) →
      ∃ t, exec (.setBusEnable b v) s = .next t ∧ ClampNoted v (min v 1) s t ∧ OnlyChanges [.flags] s t) ∧
    (∀ (b : Bus) (v : Nat) (s : State), v ≠ 0 → s.settings.busEnable.get b = false →
      ∃ t u, exec (.setBusEnable b v) s = .next t ∧
        u.settings = { s.settings with busEnable := s.settings.busEnable.set b true } ∧ ClampNoted v 1 s u ∧
        OnlyChanges [.settings, .flags] s u ∧ ChosenAgain b u t) ∧
    (∀ (b : Bus) (s : State), s.settings.busEnable.get b = true → (s.buses.get b).codedAhead = none →
      ∃ t, exec (.setBusEnable b 0) s = .next t ∧
        t.settings = { s.settings with busEnable := s.settings.busEnable.set b false } ∧
        OnlyChanges [.settings] s t) ∧
    ∀ (b : Bus) (f : Frame) (s : State), s.settings.busEnable.get b = true → (s.buses.get b).codedAhead = some f →
      ∃ t, exec (.setBusEnable b 0) s = .next t ∧
        t.settings = { s.settings with busEnable := s.settings.busEnable.set b false } ∧
        t.buses.get b = { s.buses.get b with codedAhead := none } ∧
        MarksOnly f.panel (fun y => f.work = .line y ∧ ∃ row, s.scene.panel f.panel = some row ∧ y < row.height) s t ∧
        (let r := s.disp.panels.get f.panel
         t.disp.panels.get f.panel = { r with
          viewCommand :=
            match f.work with
            | .view c => some (r.viewCommand.getD c)
            | .line _ | .palette => r.viewCommand
          palettePending := r.palettePending || decide (f.work = .palette)
          probeDue := r.probeDue || decide (r.state = .fault) }) ∧
        OtherPanels f.panel s t ∧
        OnlyChanges [.settings, .dirty, .panels, .bus b] s t

/-- R160, R161, R178: a SET of the sensor fallback level is taken at once by every group whose computed source is the
fallback, and by no other; where a group's level changes, PALETTE is pending on each of its panels, and nothing else of
any panel changes. -/
def Obligations.FallbackLevelMovesFallbackGroups : Prop :=
  ∀ (v : Nat) (s : State), ∃ t, exec (.setSensorFallbackLevel v) s = .next t ∧
    t.settings = { s.settings with fallbackLevel := min v 255 } ∧ ClampNoted v (min v 255) s t ∧
    (∀ n,
      (s.tables.activeBank.curve = none ∨ (s.light.sensors.get n).state = .failed ∨
          (s.light.sensors.get n).seeded = false → t.light.groups.get n = ⟨min v 255, .fallback⟩) ∧
        (s.tables.activeBank.curve ≠ none ∧ (s.light.sensors.get n).state = .good ∧
          (s.light.sensors.get n).seeded = true → t.light.groups.get n = s.light.groups.get n)) ∧
    PalettesFollowLevels s t ∧ OnlyChanges [.settings, .flags, .groups, .panels] s t

/-! ## Reports -/

/-- R171, R172, R176, R179 to R181: a QUERY for DEVICE, PANEL, BANK, INPUTS or SETTINGS puts one good REPORT cell of its
kind, with the node as source, at the tail of the own-reply queue where there is room, and raises REPLY_DROP where there
is not; on an idle RETURN_OUT the arbiter acts at once (the rate by its code is log entry 28, DEDUCED); building a
DEVICE report, and no other, clears the flags, the refusal record, the refusal count and the two trunk counts.
R180: a QUERY of an unknown kind, or of an item that its kind does not have, is refused with BAD_FIELD; nothing else
changes. Bytes of a report that the layout leaves open are free (log entry 1). -/
def Obligations.QueryJoinsItsReportToTheOwnQueue : Prop :=
  (∀ (item : Nat) (s : State) (row : Nat × Nat × Instr × Nat),
    row ∈ [(0, 0, Instr.queryDevice 0, 23), (2, item, .queryPanel item, 8), (3, 0, .queryBank 0, 43),
      (4, 0, .queryInputs 0, 44), (5, 0, .querySettings 0, 152)] → item ≤ 15 →
    ∃ t cell contents, exec row.2.2.1 s = .next t ∧ contents.length = row.2.2.2 ∧ GoodCell cell ∧
      cell = [0x60, BitVec.ofNat 8 s.trunk.node.val, BitVec.ofNat 8 (4 + contents.length), BitVec.ofNat 8 row.1,
        BitVec.ofNat 8 row.2.1, 1, 1] ++ contents ++ [checkOf (cell.take (contents.length + 7))] ∧
      JoinOwn [cell] (decide (row.1 ≠ 0) && s.mgmt.flags.replyDrop) s t ∧
      (if row.1 = 0 then
        { t.mgmt.flags with replyDrop := false } = Flags.clear ∧ t.mgmt.refusal = none ∧ t.mgmt.refusals = 0 ∧
          t.trunk.abandoned = 0 ∧ t.trunk.checkFailures = 0
      else
        { t.mgmt.flags with replyDrop := s.mgmt.flags.replyDrop } = s.mgmt.flags ∧
          t.mgmt.refusal = s.mgmt.refusal ∧ t.mgmt.refusals = s.mgmt.refusals ∧
          t.trunk.abandoned = s.trunk.abandoned ∧ t.trunk.checkFailures = s.trunk.checkFailures) ∧
      OnlyChanges [.returnLane, .flags, .refusal, .trunkCounts, .freeCount] s t) ∧
    (∀ (kind item : Nat) (s : State), 5 < kind →
      ∃ t, exec (.queryUnknownKind kind item) s = .next t ∧ RefusedOnly 0x50 .badField s t) ∧
    ∀ (item : Nat) (s : State),
      (7 < item → ∃ t, exec (.queryBoard item) s = .next t ∧ RefusedOnly 0x50 .badField s t) ∧
        (15 < item → ∃ t, exec (.queryPanel item) s = .next t ∧ RefusedOnly 0x50 .badField s t) ∧
        (item ≠ 0 → ∀ c ∈ [Instr.queryDevice item, .queryBank item, .queryInputs item, .querySettings item],
          ∃ t, exec c s = .next t ∧ RefusedOnly 0x50 .badField s t)

/-- R67, R164, R176, R179, R181, R186, R188: what the DEVICE, PANEL, BANK, INPUTS and SETTINGS reports say, read back
from the cell that joins the own-reply queue, in which the contents begin behind seven characters (the codes of marks
are log entry 19, and four-byte fields run most significant byte first by log entry 24; bytes the layout leaves open are
free, log entry 1). -/
def Obligations.ReportsReadBack : Prop :=
  (∀ s : State, s.trunk.own.length < 4 →
    ∃ t cell, exec (.queryDevice 0) s = .next t ∧ t.trunk.own = s.trunk.own ++ [cell] ∧
      byteAt cell 7 = s.trunk.node.val ∧ byteAt cell 8 = s.trunk.rateCode.val ∧
      [DeviceMode.run, .night, .test][byteAt cell 9]? = some s.mgmt.mode ∧
      [ClockState.unset, .synced, .drifting, .held][byteAt cell 10]? = some s.clock.state ∧
      tripleAt cell 11 = s.clock.value % 16777216 ∧ wordAt cell 14 = s.clock.age % 65536 ∧
      [BankId.a, .b][byteAt cell 16]? = some s.tables.active ∧
      [StandbyState.clean, .loaded, .copying, .faulted][byteAt cell 17]? = some s.tables.standby ∧
      [false, true][byteAt cell 18]? = some s.tables.swapPending ∧
      [false, true][byteAt cell 19]? = some s.trunk.silent ∧ wordAt cell 20 = s.trunk.silence % 65536 ∧
      (byteAt cell 23).testBit 0 = s.mgmt.flags.fwdDrop ∧ (byteAt cell 23).testBit 1 = s.mgmt.flags.relayDrop ∧
      (byteAt cell 23).testBit 2 = s.mgmt.flags.replyDrop ∧ (byteAt cell 23).testBit 3 = s.mgmt.flags.newDay ∧
      (byteAt cell 23).testBit 4 = s.mgmt.flags.pulseDiscord ∧
      (byteAt cell 23).testBit 5 = s.mgmt.flags.settingClamped ∧
      (∀ b : Fin 8, (byteAt cell 24).testBit b.val = s.mgmt.flags.overflow.get b) ∧
      byteAt cell 25 = s.trunk.abandoned % 256 ∧ byteAt cell 26 = s.trunk.checkFailures % 256 ∧
      (s.mgmt.refusal = none → byteAt cell 27 = 0 ∧ byteAt cell 28 = 0) ∧
      (∀ kind reason, s.mgmt.refusal = some (kind, reason) → byteAt cell 27 = kind % 256 ∧
        [none, some Reason.badKind, some .badLength, some .badField, some .badIndex, some .poolFull, some .bankBusy,
          some .bankFaulted, some .slotLocked, some .stillActive][byteAt cell 28]? = some (some reason)) ∧
      byteAt cell 29 = s.mgmt.refusals % 256) ∧
    (∀ (p : Fin 16) (s : State), s.trunk.own.length < 4 →
      ∃ t cell, exec (.queryPanel p.val) s = .next t ∧ t.trunk.own = s.trunk.own ++ [cell] ∧
        (∀ row, s.scene.panel p = some row →
          [PanelState.absent, .starting, .online, .fault][byteAt cell 7]? = some (s.disp.panels.get p).state ∧
            (match s.disp.seq.views.get p with
              | some v => [PanelView.normal, .emergency, .blank, .test, .fallback][byteAt cell 8]? = some v
              | none => byteAt cell 8 = 255) ∧
            byteAt cell 9 = (s.disp.panels.get p).failures % 256 ∧
            [none, some ViewCommand.blank, some .unblank][byteAt cell 10]? = some (s.disp.panels.get p).viewCommand ∧
            [false, true][byteAt cell 11]? = some (s.disp.panels.get p).palettePending ∧
            [BusState.idle, .sending, .awaiting, .held][byteAt cell 12]? = some (s.buses.get row.bus).state ∧
            byteAt cell 13 = (s.disp.lines.dirty.get p).length % 256 ∧
            (∀ n, row.dim = .sensor n → byteAt cell 14 = (s.light.groups.get n).level % 256) ∧
            ∀ level, row.dim = .fixed level → byteAt cell 14 = level % 256) ∧
        (s.scene.panel p = none →
          byteAt cell 7 = 0 ∧ byteAt cell 8 = 255 ∧ byteAt cell 9 = 0 ∧ byteAt cell 10 = 0 ∧ byteAt cell 11 = 0 ∧
            byteAt cell 12 = 255 ∧ byteAt cell 13 = 0)) ∧
    (∀ s : State, s.trunk.own.length < 4 →
      ∃ t cell, exec (.queryBank 0) s = .next t ∧ t.trunk.own = s.trunk.own ++ [cell] ∧
        [BankId.a, .b][byteAt cell 7]? = some s.tables.active ∧
        [StandbyState.clean, .loaded, .copying, .faulted][byteAt cell 8]? = some s.tables.standby ∧
        [false, true][byteAt cell 9]? = some s.tables.swapPending ∧ BankSpelled cell 10 s.tables.bankA ∧
        BankSpelled cell 30 s.tables.bankB) ∧
    (∀ s : State, s.trunk.own.length < 4 →
      ∃ t cell, exec (.queryInputs 0) s = .next t ∧ t.trunk.own = s.trunk.own ++ [cell] ∧
        ∀ n : Fin 4,
          (let at_ := 7 + 4 * n.val
           let c := s.contacts.get n
           [Level.low, .high][byteAt cell at_]? = some c.raw ∧
            [Level.low, .high][byteAt cell (at_ + 1)]? = some c.filtered ∧
            [ContactState.disabled, .settling, .watching][byteAt cell (at_ + 2)]? = some c.state ∧
            [false, true][byteAt cell (at_ + 3)]? = some c.latch.isSome) ∧
          (let at_ := 23 + 7 * n.val
           let x := s.light.sensors.get n
           [SensorState.good, .failed][byteAt cell at_]? = some x.state ∧
            [false, true][byteAt cell (at_ + 1)]? = some x.seeded ∧ byteAt cell (at_ + 2) = x.lastSample % 256 ∧
            byteAt cell (at_ + 3) = (if x.seeded then x.accumulator / 8 else 0) % 256 ∧
            byteAt cell (at_ + 4) = x.run % 256 ∧ byteAt cell (at_ + 5) = (s.light.groups.get n).level % 256 ∧
            [LevelSource.curve, .fallback][byteAt cell (at_ + 6)]? = some (s.light.groups.get n).source)) ∧
    ∀ s : State, s.trunk.own.length < 4 →
      ∃ t cell, exec (.querySettings 0) s = .next t ∧ t.trunk.own = s.trunk.own ++ [cell] ∧
        ∀ k v, (settingValues s.settings)[k]? = some v → quadAt cell (7 + 4 * k) = v % 4294967296

/-- R23, R180, R188: a QUERY for BOARD answers with one cell, or with two of 8 and the rest for a board of more than 8
entries, which join the own-reply queue as far as it has room, with REPLY_DROP where it has none; read back, the cells
list the board's entries in board order with every field as it stands, and the board is untouched. The codes of the
shown role are log entry 19 (DEDUCED), and the rate by its code is log entry 28 (DEDUCED). Bytes the layout leaves open
are free (log entry 1). -/
def Obligations.BoardReportListsTheBoardInOrder : Prop :=
  ∀ (b : Fin 8) (s : State), BoardOk (s.boards.get b) →
    ∃ t cells, exec (.queryBoard b.val) s = .next t ∧ JoinOwn cells s.mgmt.flags.replyDrop s t ∧
      { t.mgmt.flags with replyDrop := s.mgmt.flags.replyDrop } = s.mgmt.flags ∧
      cells.length = (if (s.boards.get b).length ≤ 8 then 1 else 2) ∧ (∀ cell ∈ cells, GoodCell cell) ∧
      (∀ (k : Nat) (cell : List Byte), cells[k]? = some cell →
        byteAt cell 0 = 0x60 ∧ byteAt cell 1 = s.trunk.node.val ∧ byteAt cell 3 = 1 ∧ byteAt cell 4 = b.val ∧
          byteAt cell 5 = k + 1 ∧ byteAt cell 6 = cells.length ∧
          byteAt cell 7 = min 8 ((s.boards.get b).length - 8 * k) ∧
          cell.length = 9 + 24 * min 8 ((s.boards.get b).length - 8 * k)) ∧
      (∀ (i : Nat) (e : Entry), (s.boards.get b)[i]? = some e →
        ∃ cell, cells[i / 8]? = some cell ∧
          (let at_ := 8 + 24 * (i % 8)
           let present := byteAt cell (at_ + 3)
           byteAt cell at_ = b.val ∧ wordAt cell (at_ + 1) = e.sid ∧ wordAt cell (at_ + 4) = e.dest ∧
            CarriedAs (present.testBit 0) (wordAt cell (at_ + 6)) 65536 e.via ∧
            CarriedAs (present.testBit 1) (byteAt cell (at_ + 8)) 256 e.platform ∧
            tripleAt cell (at_ + 9) = e.sched ∧
            CarriedAs (present.testBit 2) (tripleAt cell (at_ + 12)) 16777216 e.expected ∧
            CodesStatus (byteAt cell (at_ + 15)) e.status ∧
            CarriedAs (present.testBit 3) (byteAt cell (at_ + 16)) 256 e.cars ∧
            present.testBit 4 = e.lastService ∧ wordAt cell (at_ + 17) = e.age ∧
            byteAt cell (at_ + 19) = (fieldSpelling e.field).1 ∧
            tripleAt cell (at_ + 20) = (fieldSpelling e.field).2 % 16777216 ∧
            [none, none, some ShownRole.time, some .delayed, some .cancelled, some .stale][byteAt cell (at_ + 23)]? =
              some (some e.role))) ∧
      OnlyChanges [.returnLane, .flags, .freeCount] s t

/-! ## Line coding and frames -/

/-- R41, R69, R75, R77 to R79, R82, R84, R101, R131 to R133: how texts are set. A text sets the pixels that the rows of
its glyphs set, each glyph at the pen position that the glyphs before it give, an absent glyph adding nothing; its width
counts its glyphs and the spacing between each two; in a box it starts by its alignment, and at the left edge where it
is wider; which lines a zone, a single-line text and a departure row have; and the glyph codes of each field, of a shown
time field and of a clock. -/
def Obligations.TextsAreSetInTheirPlaces : Prop :=
  (∀ (bank : Bank) (t : SetText) (x y : Nat),
    t.sets bank x y = true ↔ t.top ≤ y ∧ y < t.top + t.font.height ∧
      ∃ before c after g, t.codes = before ++ c :: after ∧ bank.glyphs.find c = some g ∧
        (let pen : Int := t.start +
          (((before.filterMap bank.glyphs.find).map fun g => g.width + t.font.spacing).sum : Nat)
         let j := ((x : Int) - pen).toNat
         pen ≤ x ∧ (x : Int) < pen + g.width ∧ y - t.top < g.rowCount ∧
          (byteAt g.rows ((y - t.top) * ((g.width + 7) / 8) + j / 8)).testBit (7 - j % 8) = true)) ∧
    (∀ (bank : Bank) (font : Font) (codes : List Nat),
      let glyphs := codes.filterMap bank.glyphs.find
      bank.textWidth font codes = (glyphs.map Glyph.width).sum + font.spacing * (glyphs.length - 1)) ∧
    (∀ (align : Align) (boxX boxWidth width : Nat),
      (alignedStart align boxX boxWidth width : Int) =
        max (boxX : Int)
          (match align with
          | .left => boxX
          | .right => (boxX : Int) + boxWidth - width
          | .centre => (boxX : Int) + ((boxWidth : Int) - width) / 2)) ∧
    (∀ (zone : Zone) (row : PanelRow) (height gap i y : Nat),
      let inside (from_ count : Nat) : Prop := zone.x < row.width ∧ y < row.height ∧ zone.y ≤ y ∧
        y < zone.y + zone.h ∧ from_ ≤ y ∧ y < from_ + count
      zone.textTop height = (if zone.h ≤ height then zone.y else zone.y + (zone.h - height) / 2) ∧
        (y ∈ zone.lines row ↔ inside zone.y zone.h) ∧
        (y ∈ zone.textLines row height ↔ inside (zone.textTop height) height) ∧
        (y ∈ zone.rowLines row height gap i ↔ inside (zone.y + i * (height + gap)) height) ∧
        fullPanelTop row.height height = (if row.height ≤ height then 0 else (row.height - height) / 2) ∧
        (y ∈ syntheticTextLines row height ↔ y < row.height ∧ fullPanelTop row.height height ≤ y ∧
          y < fullPanelTop row.height height + height)) ∧
    (∀ (bank : Bank) (secondary : Bool) (n : Nat),
      (bank.strings.find n = none → bank.stringText secondary n = []) ∧
        ∀ st, bank.strings.find n = some st →
          bank.stringText secondary n = if secondary then st.secondary.getD st.primary else st.primary) ∧
    ∀ (bank : Bank) (secondary : Bool) (base : Nat) (e : Entry),
      let text := bank.stringText secondary
      let digits (n : Nat) := (decimalDigits n).map (base + ·)
      let codes := fieldCodes bank secondary base
      let shown (f : TimeField) := codes { e with field := f } .time
      codes e .destination = text e.dest ∧ codes e .via = (e.via.map text).getD [] ∧
        codes e .platform = (e.platform.map digits).getD [] ∧ codes e .scheduled = clockCodes base e.sched ∧
        codes e .cars = (e.cars.map digits).getD [] ∧ shown .due = text 1000 ∧
        (∀ m, shown (.minutes m) = digits m ++ text 1001) ∧ (∀ x, shown (.clock x) = clockCodes base x) ∧
        (∀ x, shown (.staleClock x) = clockCodes base x) ∧ shown .cancelled = text 1002 ∧ shown .held = text 1003 ∧
        shown .arriving = text 1004 ∧ clockTextCodes bank secondary base .unset = text 1005 ∧
        ∀ h h' m m' z z' : Nat,
          clockTextCodes bank secondary base (.digits [h, h', m, m']) =
              [base + h, base + h', base + 10, base + m, base + m'] ∧
            clockTextCodes bank secondary base (.digits [h, h', m, m', z, z']) =
              [base + h, base + h', base + 10, base + m, base + m', base + 10, base + z, base + z']

/-- R75, R76, R101, R122, R129, R130, R133, R134: a composed line is as wide as its panel. In NORMAL each pixel has the
colour of the highest-numbered zone of the panel that puts one there, its content over its fill (by the kind of the
zone: `ContentPuts`), and else the background; in TEST the bar of its line; in FALLBACK and EMERGENCY the text of the
view, centred or scrolled, over the background; in BLANK, and with no view, the background. (The zone table is in
canonical form, as loading keeps it. A held text that has grown wider than its zone starts at the zone's x, log entry
26.) -/
def Obligations.ComposedLineFollowsItsViewAndZones : Prop :=
  ∀ (sc : Scene) (d : Display) (p : Fin 16) (row : PanelRow) (y : Nat), sc.bank.zones.wf → sc.panel p = some row →
    (composeLine sc d p row y).length = row.width ∧
      ∀ x, x < row.width → ∃ c, (composeLine sc d p row y)[x]? = some c ∧
        (let font := sc.bank.font row.emergencyFont
         let top := fullPanelTop row.height font.height
         let secondary := decide (d.seq.phase = .secondary)
         match d.seq.views.get p with
         | some .normal =>
          (∃ e ∈ sc.zones, e.2.1 = p ∧ ZonePuts sc d x y e c ∧
              ∀ e' ∈ sc.zones, e'.2.1 = p → e.1 < e'.1 → ∀ other, ¬ZonePuts sc d x y e' other) ∨
            (∀ e ∈ sc.zones, e.2.1 = p → ∀ other, ¬ZonePuts sc d x y e other) ∧ c = row.background
         | some .test => c.val = y / 4 % 16
         | some .fallback =>
          let text := (row.fallback.map (sc.bank.stringText secondary)).getD []
          (SetsIn sc.bank font text .centre 0 row.width top x y → c = sc.bank.roleColour row.palette .message) ∧
            (¬SetsIn sc.bank font text .centre 0 row.width top x y → c = row.background)
         | some .emergency =>
          (∀ rt, d.seq.synthetic.get p = some rt →
              (let text := match rt.showing with
                | .slot n => ((sc.slots.get n).record?.map fun r => codesOf sc.bank secondary r.text).getD []
                | .idle | .empty => []
               let sets := if rt.stepTimer = none then SetsIn sc.bank font text .centre 0 row.width top x y
                else Sets sc.bank font text ((row.width : Int) - rt.offset) top x y
               (sets → c = sc.bank.roleColour row.palette .emergency) ∧ (¬sets → c = row.background))) ∧
            (d.seq.synthetic.get p = none → c = row.background)
         | some .blank | none => c = row.background)

/-- R135, R136: the runs of a line, each of 1 to 16 pixels, spell the line; the form sent is RUN where its count is no
greater than the PACKED count and else PACKED, whose bytes hold two pixels each, the left one in the upper half.
R137, R144, R162, R189: the characters of every frame: address, command, payload length, payload and a check that brings
the sum of the data bits to 0 mod 256, with the marker bit set on the address and clear on all after it; a LINE carries
its line, its form and its data, a PALETTE the 48 components of its palette, black where none was ever loaded (R65),
each at the panel's applied level, a view command nothing. -/
def Obligations.FramesSpellTheirLinesAndSumToZero : Prop :=
  (∀ px : List Colour,
    ((lineRuns px).flatMap fun r => List.replicate r.2 r.1) = px ∧
      (∀ r ∈ lineRuns px, 1 ≤ r.2 ∧ r.2 ≤ 16) ∧
      (lineRuns px).length = ((spans px).map fun span => (span.2 + 15) / 16).sum ∧
      (spans px).IsChain (fun a b => a.1 ≠ b.1) ∧
      (packedBytes px).length = (px.length + 1) / 2 ∧
      (∀ i c, px[i]? = some c →
        c.val = if i % 2 = 0 then byteAt (packedBytes px) (i / 2) / 16 else byteAt (packedBytes px) (i / 2) % 16) ∧
      codeLine px =
        (if (lineRuns px).length ≤ (px.length + 1) / 2 then
          (0, (lineRuns px).map fun r => BitVec.ofNat 8 (r.1.val * 16 + (r.2 - 1)))
        else (1, packedBytes px)) ∧
      (px.length ≤ 384 → (codeLine px).2.length ≤ 192)) ∧
    (∀ (s : State) (p : Fin 16) (row : PanelRow) (work : FrameWork),
      let data := (workChars s p row work).map BusChar.data
      sumBytes data = 0 ∧
        (workChars s p row work).map BusChar.marker = true :: List.replicate (data.length - 1) false ∧
        byteAt data 0 = row.address % 256 ∧
        (∀ y, work = .line y →
          let coded := codeLine (composeLine s.scene s.disp p row y)
          byteAt data 1 = 1 ∧ (row.width ≤ 384 → byteAt data 2 = coded.2.length + 2) ∧ byteAt data 3 = y % 256 ∧
            byteAt data 4 = coded.1 ∧ (data.drop 5).dropLast = coded.2 ∧ data.length = coded.2.length + 6 ∧
            (composeLine s.scene s.disp p row y).length = row.width) ∧
        (work = .palette →
          byteAt data 1 = 2 ∧
            (∀ pal, s.tables.activeBank.palettes.find row.palette = some pal → pal.Ok →
              data.length = 52 ∧ byteAt data 2 = 48 ∧
                ∀ level, ((∃ n, row.dim = .sensor n ∧ level = (s.light.groups.get n).level) ∨ row.dim = .fixed level) →
                  ∀ i c, pal.colours[i]? = some c →
                    data[3 + i]? = some (BitVec.ofNat 8 ((c.toNat * level + 127) / 255))) ∧
            (s.tables.activeBank.palettes.find row.palette = none →
              data.length = 52 ∧ byteAt data 2 = 48 ∧ ∀ i, i < 48 → data[3 + i]? = some 0)) ∧
        ∀ c, work = .view c →
          data.length = 4 ∧ byteAt data 2 = 0 ∧ byteAt data 1 = (if c = .blank then 3 else 4))

/-- R159, R162: the curve's level at a light is the first level below the curve, the last above it, and between two
points lies between their levels, on the straight line to the nearest whole number with a half rounded up; a palette
component is scaled to the nearest whole number of c times L over 255, unchanged at level 255 and 0 at level 0. -/
def Obligations.BrightnessFollowsTheCurve : Prop :=
  (∀ points light, CurveOk points →
      (∀ first, points.head? = some first → light ≤ first.1 → curveLevel points light = first.2) ∧
        (∀ last, points.getLast? = some last → last.1 ≤ light → curveLevel points light = last.2) ∧
        (∀ i p q, points[i]? = some p → points[i + 1]? = some q → p.1 ≤ light → light ≤ q.1 →
          p.2 ≤ curveLevel points light ∧ curveLevel points light ≤ q.2 ∧
            2 * (q.1 - p.1) * (curveLevel points light - p.2) ≤ 2 * (light - p.1) * (q.2 - p.2) + (q.1 - p.1) ∧
            2 * (light - p.1) * (q.2 - p.2) < 2 * (q.1 - p.1) * (curveLevel points light - p.2) + (q.1 - p.1)) ∧
        curveLevel points light ≤ 255) ∧
    ∀ level c, level ≤ 255 → c ≤ 255 →
      scaleComponent level c ≤ 255 ∧ scaleComponent 255 c = c ∧ scaleComponent 0 c = 0 ∧
        2 * (c * level) ≤ 2 * (255 * scaleComponent level c) + 255 ∧
        2 * (255 * scaleComponent level c) ≤ 2 * (c * level) + 255

/-- R145: which panels are candidates of a bus.
R125, R144 to R147: a bus that may choose and has a candidate builds a frame for one: from the EMERGENCY tier where
that holds a candidate, and in its tier the first after the marker round to the marker; the frame carries the first work
the panel has, whose mark comes off; it starts at once on an IDLE bus, at the rate as set, and else waits coded ahead;
the marker follows. A bus that may not choose, or has no candidate, does nothing. (FRAME_CHOICE is a step of its own
beside the choices that an outcome, a release and an enable make, log entry 7.) -/
def Obligations.FrameChoiceServesItsTierInTurn : Prop :=
  (∀ (b : Bus) (p : Fin 16) (s : State), isCandidate s b p = true ↔ Candidate s b p) ∧
    (∀ (b : Bus) (s : State),
      ((s.buses.get b).codedAhead ≠ none ∨ s.settings.busEnable.get b = false ∨ (s.buses.get b).state = .held ∨
        ∀ p, ¬Candidate s b p) → exec (.frameChoice b) s = .next s) ∧
    ∀ (b : Bus) (s : State), (s.buses.get b).codedAhead = none → s.settings.busEnable.get b = true →
    (s.buses.get b).state ≠ .held → (∃ p, Candidate s b p) →
    ∃ t p row work, exec (.frameChoice b) s = .next t ∧ Candidate s b p ∧ s.scene.panel p = some row ∧
      row.bus = b ∧
      ((∃ q, Candidate s b q ∧ s.disp.seq.views.get q = some .emergency) →
        s.disp.seq.views.get p = some .emergency) ∧
      (∀ q, Candidate s b q →
        (s.disp.seq.views.get q = some .emergency ↔ s.disp.seq.views.get p = some .emergency) →
        (p.val + 15 - (s.buses.get b).marker.val) % 16 ≤ (q.val + 15 - (s.buses.get b).marker.val) % 16) ∧
      (let r := s.disp.panels.get p
       let f : Frame := ⟨p, row.address, work, workChars s p row work, none, false⟩
       (if r.state = .fault then work = .palette
        else
          match r.viewCommand, r.palettePending, s.disp.lines.dirty.get p with
          | some c, _, _ => work = .view c
          | none, true, _ => work = .palette
          | none, false, y :: _ => work = .line y
          | none, false, [] => False) ∧
        (work = .palette → t.disp.panels.get p = { r with palettePending := false, probeDue := false }) ∧
        (∀ c, work = .view c → t.disp.panels.get p = { r with viewCommand := none }) ∧
        (∀ y, work = .line y → t.disp.panels.get p = r ∧ t.disp.lines.dirty.get p = (s.disp.lines.dirty.get p).tail) ∧
        ((∀ y, work ≠ .line y) → t.disp.lines = s.disp.lines) ∧
        t.buses.get b =
          (if (s.buses.get b).state = .idle then
            { s.buses.get b with
              state := .sending, inFlight := some { f with rate := some (s.settings.busRate.get b) }, marker := p }
          else { s.buses.get b with codedAhead := some f, marker := p })) ∧
      OtherPanels p s t ∧ OnlyChanges [.dirty, .panels, .bus b] s t

/-! ## Panel buses -/

/-- R148, R152, R155: the last character of a frame brings its bus to AWAITING with 2 ms of answer timer; a class gap
that expires stops; the second that brings the probe timer of a FAULT panel to 0 sets its probe-due mark (a row of its
own by log entry 4).
R148, R150, R151: the clock line pulled low holds an IDLE bus, turns the answer window into a hold, and fails the frame
of a SENDING bus as any failure does (`Fails`, none for an orphaned frame, R154), which is then HELD; its release opens
the answer window again, or ends HELD, starts the coded-ahead frame, and the bus chooses again (log entry 7). (A frame
once orphaned stays so through later swaps: log entry 14, DEDUCED.) -/
def Obligations.TimersAndTheClockLineMoveTheBus : Prop :=
  ((∀ (b : Bus) (s : State), (s.buses.get b).state = .sending →
      ∃ t, exec (.frameSent b) s = .next t ∧
        t.buses.get b = { s.buses.get b with state := .awaiting, answerTimer := some 2 } ∧ OnlyChanges [.bus b] s t) ∧
    (∀ (p : Fin 16) (s : State), ∃ t, exec (.classGapExpiry p) s = .next t ∧
      t.disp.panels.get p = { s.disp.panels.get p with gapTimer := none } ∧ OtherPanels p s t ∧
      OnlyChanges [.panels] s t) ∧
    ∀ (p : Fin 16) (left : Nat) (s : State), (s.disp.panels.get p).state = .fault →
      (s.disp.panels.get p).probeTimer = some left → left ≤ 1 →
      ∃ t, exec (.probeDue p) s = .next t ∧
        t.disp.panels.get p = { s.disp.panels.get p with probeTimer := none, probeDue := true } ∧ OtherPanels p s t ∧
        OnlyChanges [.panels] s t) ∧
    (∀ (b : Bus) (s : State), (s.buses.get b).Ok (s.pins.clockLow.get b) →
    (s.pins.clockLow.get b = false →
      ∃ t, exec (.clockLineLow b) s = .next t ∧ t.pins = { s.pins with clockLow := s.pins.clockLow.set b true } ∧
        ((s.buses.get b).state = .idle → t.buses.get b = { s.buses.get b with state := .held } ∧
          OnlyChanges [.pins, .bus b] s t) ∧
        ((s.buses.get b).state = .awaiting →
          t.buses.get b = { s.buses.get b with answerTimer := none, holdTimer := some s.settings.holdLimit } ∧
            OnlyChanges [.pins, .bus b] s t) ∧
        ((s.buses.get b).state = .sending →
          t.buses.get b = { s.buses.get b with state := .held, inFlight := none } ∧
            (∀ f row, Flying .sending s b f row → Fails f row s t) ∧
            (∀ f, (s.buses.get b).inFlight = some f → f.orphaned = true → OnlyChanges [.pins, .bus b] s t) ∧
            OnlyChanges [.pins, .dirty, .panels, .bus b] s t)) ∧
    (s.pins.clockLow.get b = true →
      ((s.buses.get b).state = .awaiting →
        ∃ t, exec (.clockLineRelease b) s = .next t ∧
          t.pins = { s.pins with clockLow := s.pins.clockLow.set b false } ∧
          t.buses.get b = { s.buses.get b with answerTimer := some 2, holdTimer := none } ∧
          OnlyChanges [.pins, .bus b] s t) ∧
        ((s.buses.get b).state = .held →
          ∃ t u, exec (.clockLineRelease b) s = .next t ∧
            u.pins = { s.pins with clockLow := s.pins.clockLow.set b false } ∧
            Settled (s.settings.busRate.get b) false (s.buses.get b) (u.buses.get b) ∧
            OnlyChanges [.pins, .bus b] s u ∧ ChosenAgain b u t)))

/-- R147 to R149, R152: an ACK that arrives in AWAITING brings its panel's count to 0 and makes it ONLINE, or STARTING
with all its work pending from FAULT; the panel's class gap starts, the bus settles and then chooses again (log entry
7).
R148, R154: no outcome of a frame that a swap has orphaned touches its panel, whatever the answer and for each timer;
the bus settles and chooses as after any outcome. (A frame once orphaned stays so through later swaps: log entry 14,
DEDUCED.) A character that arrives outside AWAITING is ignored. -/
def Obligations.AckBringsThePanelOnlineUnlessOrphaned : Prop :=
  (∀ (b : Bus) (f : Frame) (row : PanelRow) (s : State), Flying .awaiting s b f row →
    ∃ t u, exec (.panelAnswer b 0xA5 false) s = .next t ∧
      ((s.disp.panels.get f.panel).state ≠ .fault →
        u.disp.panels.get f.panel = { s.disp.panels.get f.panel with
          state := .online, failures := 0, gapTimer := gapOf row.busClass } ∧ u.disp.lines = s.disp.lines) ∧
      ((s.disp.panels.get f.panel).state = .fault →
        u.disp.panels.get f.panel = ⟨.starting, 0, gapOf row.busClass, none, false,
            some (if s.disp.seq.views.get f.panel = some .blank then .blank else .unblank), true⟩ ∧
          u.disp.lines.dirty.get f.panel = List.range row.height ∧ u.disp.lines.cursor.get f.panel = 0) ∧
      Settled (s.settings.busRate.get b) (s.pins.clockLow.get b) (s.buses.get b) (u.buses.get b) ∧
      OtherPanels f.panel s u ∧ OnlyChanges [.dirty, .cursors, .panels, .bus b] s u ∧ ChosenAgain b u t) ∧
    (∀ (b : Bus) (f : Frame) (c : Instr) (s : State), (s.buses.get b).state = .awaiting →
        (s.buses.get b).inFlight = some f → f.orphaned = true →
        ((∃ data marker, c = .panelAnswer b data marker) ∨ (c = .answerTimeout b ∧ (s.buses.get b).answerTimer ≠ none) ∨
          (c = .holdTimeout b ∧ (s.buses.get b).holdTimer ≠ none)) →
        ∃ t u, exec c s = .next t ∧
          Settled (s.settings.busRate.get b) (s.pins.clockLow.get b) (s.buses.get b) (u.buses.get b) ∧
          OnlyChanges [.bus b] s u ∧ ChosenAgain b u t) ∧
      ∀ (b : Bus) (data : Byte) (marker : Bool) (s : State), (s.buses.get b).state ≠ .awaiting →
        exec (.panelAnswer b data marker) s = .next s

/-- R148, R150 to R152: a character other than ACK, the expiry of the answer timer and the expiry of the hold timer are
each a failure (`Fails`): the frame's work is handed back, the count rises by one, the eighth failure of a STARTING or
ONLINE panel makes it FAULT with 10 s of probe timer, a failed probe of a FAULT panel loads that timer again, and the
class gap starts; the bus settles and then chooses again (log entry 7). PANEL_FAULT is the failure that brings the count
to 8 (a row of its own by log entry 4; that it is its awaited frame's failure is log entry 16, DEDUCED). -/
def Obligations.FailureHandsTheWorkBack : Prop :=
  ∀ (b : Bus) (f : Frame) (row : PanelRow) (s : State) (c : Instr), Flying .awaiting s b f row →
    ((∃ data marker, c = .panelAnswer b data marker ∧ (data ≠ 0xA5 ∨ marker = true)) ∨
        (c = .answerTimeout b ∧ (s.buses.get b).answerTimer ≠ none) ∨
        (c = .holdTimeout b ∧ (s.buses.get b).holdTimer ≠ none) ∨
        (c = .panelFault f.panel ∧ (s.disp.panels.get f.panel).state ≠ .fault ∧
          7 ≤ (s.disp.panels.get f.panel).failures ∧
          ∀ b' g, b' ≠ b → (s.buses.get b').inFlight = some g → g.panel ≠ f.panel)) →
    ∃ t u, exec c s = .next t ∧ Fails f row s u ∧
      Settled (s.settings.busRate.get b) (s.pins.clockLow.get b) (s.buses.get b) (u.buses.get b) ∧
      OnlyChanges [.dirty, .panels, .bus b] s u ∧ ChosenAgain b u t

/-! ## Ambient light -/

/-- R156, R157, R160, R161: at each sample every sensor is fed and judged by its own sample; a group moves at once to
its computed level, but on an ordinary occasion only by 6 or more or to an end of the curve; a level that moves makes
PALETTE pending on the group's panels, and nothing else of any panel changes. SENSOR_FAILED and SENSOR_RESTORED are the
sample of one sensor that changes its state (rows of their own by log entry 4). -/
def Obligations.SamplesMoveSensorsAndGroups : Prop :=
  (∀ (s0 s1 s2 s3 : Byte) (s : State), (∀ n, (s.light.sensors.get n).Ok) →
      ∃ t, exec (.lightSample s0 s1 s2 s3) s = .next t ∧
        (∀ n : Fin 4, ∃ v, [s0, s1, s2, s3][n.val]? = some v ∧
          Sampled (s.light.sensors.get n) (t.light.sensors.get n) v.toNat ∧
          (let old := s.light.sensors.get n
           let new := t.light.sensors.get n
           let applied := s.light.groups.get n
           let computed := computedLevel s.tables.activeBank.curve s.settings.fallbackLevel new
           let ordinary := old.state = .good ∧ old.seeded = true ∧ new.state = .good ∧ computed.source = .curve ∧
            applied.source = .curve
           (¬ordinary → t.light.groups.get n = computed) ∧
            (ordinary →
              t.light.groups.get n =
                if applied.level + 6 ≤ computed.level ∨ computed.level + 6 ≤ applied.level ∨
                    atCurveEnd s.tables.activeBank.curve computed.level = true then computed
                else applied))) ∧
        PalettesFollowLevels s t ∧ OnlyChanges [.sensors, .groups, .panels] s t) ∧
    (∀ (n : Fin 4) (s : State), (s.light.sensors.get n).state = .good → (s.light.sensors.get n).run = 39 →
      ∃ t, exec (.sensorFailed n) s = .next t ∧ Sampled (s.light.sensors.get n) (t.light.sensors.get n) 255 ∧
        (t.light.sensors.get n).state = .failed ∧
        t.light.groups.get n = ⟨s.settings.fallbackLevel, .fallback⟩ ∧
        (∀ m, m ≠ n → t.light.sensors.get m = s.light.sensors.get m ∧ t.light.groups.get m = s.light.groups.get m) ∧
        PalettesFollowLevels s t ∧ OnlyChanges [.sensors, .groups, .panels] s t) ∧
    ∀ (n : Fin 4) (v : Byte) (s : State), v ≠ 255 → (s.light.sensors.get n).state = .failed →
      (s.light.sensors.get n).run = 39 →
      ∃ t, exec (.sensorRestored n v) s = .next t ∧
        t.light.sensors.get n = ⟨true, 8 * v.toNat, v.toNat, .good, 0⟩ ∧
        t.light.groups.get n =
          (match s.tables.activeBank.curve with
          | some points => ⟨curveLevel points v.toNat, .curve⟩
          | none => ⟨s.settings.fallbackLevel, .fallback⟩) ∧
        (∀ m, m ≠ n → t.light.sensors.get m = s.light.sensors.get m ∧ t.light.groups.get m = s.light.groups.get m) ∧
        PalettesFollowLevels s t ∧ OnlyChanges [.sensors, .groups, .panels] s t

/-! ## The trunk -/

/-- R168, R169, R185 to R187: a well-formed command written as a cell to the coder's own address does exactly what the
command does on the state that has heard a good cell, and a broadcast one the same once it is forwarded: no bit of a
command is lost in its cell. (A row of a cell's own name is its owner's step alone, log entry 9, and TRUNK_CELL carries
the whole cell, log entry 10; that a broadcast cell is forwarded before it is taken is log entry 27.) -/
def Obligations.CellOfACommandDoesTheCommand : Prop :=
  ∀ (c : Instr) (cell : List Byte) (s : State), c.wf = true → s.trunk.rxTrunk = .hunt →
    (s.trunk.node ≠ 0 → c ≠ .restart true → encodeCell? s.trunk.node.val c = some cell →
      exec (.trunkCell cell) s = exec c (hearGood s)) ∧
    (c ≠ .restart false → encodeCell? 0 c = some cell →
      exec (.trunkCell cell) s = exec c (forwardCell cell (hearGood s)))

/-- R168, R170, R173: a good cell on TRUNK_IN restarts the silence timer and clears SILENT, the views then chosen again
(`hearGood`; a view that changes into BLANK marks every line by log entry 25, DEDUCED), and a forwarded one joins the
forward queue or is dropped with FWD_DROP (`forwardCell`), the line sending at the rate of its code (log entry 28,
DEDUCED); with a destination that is neither 0 nor the coder's own it is forwarded unchanged and nothing more.
R169: a good cell taken by the coder, at its own address or broadcast, is refused with BAD_KIND where its kind is none
of the known ones, and with BAD_LENGTH where its length is not permitted for its kind, under the kind code it carried; a
broadcast one is forwarded all the same. -/
def Obligations.GoodCellsAreForwardedOrJudged : Prop :=
  (∀ s : State, (hearGood s).trunk.silence = 0 ∧ (hearGood s).trunk.silent = false ∧
      (s.trunk.silent = false → (hearGood s).disp = s.disp) ∧ (s.trunk.silent = true → ViewsRechosen s (hearGood s)) ∧
      OnlyChanges [.silence, .views, .synthetic, .runtimes, .dirty, .panels] s (hearGood s)) ∧
    (∀ (cell : List Byte) (s : State), Forwarded cell s (forwardCell cell s) ∧
      OnlyChanges [.forward, .flags] s (forwardCell cell s)) ∧
    (∀ (cell : List Byte) (s : State), GoodCell cell → s.trunk.rxTrunk = .hunt → byteAt cell 1 ≠ 0 →
    byteAt cell 1 ≠ s.trunk.node.val →
    ∃ t, exec (.trunkCell cell) s = .next t ∧ t.trunk.silence = 0 ∧ t.trunk.silent = false ∧ Forwarded cell s t ∧
      (s.trunk.silent = false → t.disp = s.disp) ∧ (s.trunk.silent = true → ViewsRechosen s t) ∧
      OnlyChanges [.silence, .forward, .flags, .views, .synthetic, .runtimes, .dirty, .panels] s t) ∧
    (∀ (cell : List Byte) (reason : Reason) (s : State), GoodCell cell → s.trunk.rxTrunk = .hunt →
    byteAt cell 1 = 0 ∨ byteAt cell 1 = s.trunk.node.val →
    ((reason = .badKind ∧
        byteAt cell 0 ∉ [0x10, 0x11, 0x12, 0x18, 0x20, 0x21, 0x40, 0x41, 0x42, 0x43, 0x48, 0x49, 0x4A, 0x50, 0x5F]) ∨
      (reason = .badLength ∧
        ((∃ size, (byteAt cell 0, size) ∈ [(0x10, 17), (0x11, 3), (0x12, 1), (0x18, 3), (0x21, 1), (0x41, 0), (0x42, 0),
            (0x43, 0), (0x48, 5), (0x49, 1), (0x4A, 1), (0x50, 2), (0x5F, 0)] ∧ byteAt cell 2 ≠ size) ∨
          ∃ size, (byteAt cell 0, size) ∈ [(0x20, 8), (0x40, 3)] ∧ byteAt cell 2 < size))) →
    ∃ t, exec (.trunkCell cell) s = .next t ∧ t.trunk.silence = 0 ∧ t.trunk.silent = false ∧
      t.mgmt.refusal = some (byteAt cell 0, reason) ∧ t.mgmt.refusals = min 255 (s.mgmt.refusals + 1) ∧
      (byteAt cell 1 = 0 → Forwarded cell s t) ∧
      (byteAt cell 1 ≠ 0 → t.trunk.forward = s.trunk.forward ∧ t.mgmt.flags = s.mgmt.flags) ∧
      (s.trunk.silent = false → t.disp = s.disp) ∧ (s.trunk.silent = true → ViewsRechosen s t) ∧
      OnlyChanges [.silence, .forward, .flags, .refusal, .views, .synthetic, .runtimes, .dirty, .panels] s t)

/-- R166: the characters of a cell, arriving one by one on a line whose receiver hunts, do exactly what the cell
completing on that line does, whatever the cell holds (TRUNK_CELL and RETURN_CELL carry the whole cell by log entry 10).
R166: in HUNT a marker with a good stop bit begins a cell with it as its kind, and any other character is ignored; in
COLLECT a good character without a marker is kept, a length above 250 and the last of a cell apart.
R166, R167: a cell with a bad check is counted and goes no further on either line; a character that makes a receiver
abandon its cell is counted and leaves the receiver in HUNT, or in COLLECT with a new kind where it carries a good
marker; both counts stop at 255. -/
def Obligations.CharactersMakeTheCellOrAbandonIt : Prop :=
  (∀ (cell : List Byte) (s : State), cellShape cell = true →
    (s.trunk.rxTrunk = .hunt →
      runAll ((onLine cell).map (.characterArrival .trunkIn)) s = exec (.trunkCell cell) s) ∧
    (s.trunk.rxReturn = .hunt →
      runAll ((onLine cell).map (.characterArrival .returnIn)) s = exec (.returnCell cell) s)) ∧
    (∀ (lane : Lane) (ch : LineChar) (s : State),
      (s.trunk.receiver lane = .hunt →
        (ch.marker = true → ch.goodStop = true →
          ∃ t, exec (.characterArrival lane ch) s = .next t ∧ t.trunk.receiver lane = .collect [ch.data] ∧
            OnlyChanges [.receiver lane] s t) ∧
        (ch.marker = false ∨ ch.goodStop = false → exec (.characterArrival lane ch) s = .next s)) ∧
      ∀ chars, s.trunk.receiver lane = .collect chars → ch.marker = false → ch.goodStop = true →
        (chars.length = 2 → ch.data.toNat ≤ 250) → (3 ≤ chars.length → chars.length ≠ byteAt chars 2 + 3) →
        ∃ t, exec (.characterArrival lane ch) s = .next t ∧ t.trunk.receiver lane = .collect (chars ++ [ch.data]) ∧
          OnlyChanges [.receiver lane] s t) ∧
    (∀ (cell : List Byte) (s : State), cellShape cell = true → sumBytes cell ≠ 0 →
      (s.trunk.rxTrunk = .hunt → ∃ t, exec (.trunkCell cell) s = .next t ∧
        t.trunk.checkFailures = min 255 (s.trunk.checkFailures + 1) ∧ t.trunk.abandoned = s.trunk.abandoned ∧
        OnlyChanges [.trunkCounts] s t) ∧
      (s.trunk.rxReturn = .hunt → ∃ t, exec (.returnCell cell) s = .next t ∧
        t.trunk.checkFailures = min 255 (s.trunk.checkFailures + 1) ∧ t.trunk.abandoned = s.trunk.abandoned ∧
        OnlyChanges [.trunkCounts] s t)) ∧
    ∀ (lane : Lane) (chars : List Byte) (ch : LineChar) (s : State), s.trunk.receiver lane = .collect chars →
      (ch.goodStop = false ∨ ch.marker = true ∨ (chars.length = 2 ∧ 250 < ch.data.toNat)) →
      ∃ t, exec (.cellAbandoned lane ch) s = .next t ∧
        t.trunk.receiver lane = (if ch.goodStop = true ∧ ch.marker = true then .collect [ch.data] else .hunt) ∧
        t.trunk.abandoned = min 255 (s.trunk.abandoned + 1) ∧ t.trunk.checkFailures = s.trunk.checkFailures ∧
        OnlyChanges [.receiver lane, .trunkCounts] s t ∧ exec (.characterArrival lane ch) s = .next t

/-- R165, R170 to R172: a good cell on RETURN_IN joins the relay queue, or is dropped with RELAY_DROP from a full one; a
cell sent leaves its queue; whenever RETURN_OUT is free and a return queue holds a cell, the arbiter starts the head of
the one that holds cells, and of two the one it did not serve last. R165: each line sends its cell with the marker bit
on the first character alone, at the rate the straps select (their code by log entry 28, DEDUCED), and rests where no
cell waits. -/
def Obligations.QueuesSendInTurn : Prop :=
  (∀ (cell : List Byte) (s : State), GoodCell cell → s.trunk.rxReturn = .hunt →
      ∃ t, exec (.returnCell cell) s = .next t ∧ t.trunk.own = s.trunk.own ∧
        (s.trunk.relay.length < 4 → t.trunk.relay = s.trunk.relay ++ [cell] ∧ t.mgmt.flags = s.mgmt.flags ∧
          ReturnOutSends t ∧
          (s.trunk.sending ≠ none → t.trunk.sending = s.trunk.sending ∧ t.trunk.lastServed = s.trunk.lastServed)) ∧
        (s.trunk.relay.length < 4 → s.trunk.sending = none → s.trunk.own = [] →
          t.trunk.sending = some .relay ∧ t.trunk.lastServed = .relay) ∧
        (4 ≤ s.trunk.relay.length → t.trunk.relay = s.trunk.relay ∧ t.trunk.returnOut = s.trunk.returnOut ∧
          t.mgmt.flags = { s.mgmt.flags with relayDrop := true }) ∧
        OnlyChanges [.returnLane, .flags] s t) ∧
    (∀ s : State, ∃ t, exec .trunkOutCellSent s = .next t ∧ t.trunk.forward = s.trunk.forward.tail ∧
      TrunkOutSends t ∧ OnlyChanges [.forward] s t) ∧
    ∀ (q : ReturnQueue) (s : State), s.trunk.sending = some q →
      ∃ t, exec .returnOutCellSent s = .next t ∧
        t.trunk.relay = (if q = .relay then s.trunk.relay.tail else s.trunk.relay) ∧
        t.trunk.own = (if q = .own then s.trunk.own.tail else s.trunk.own) ∧
        (t.trunk.relay = [] → t.trunk.own = [] → t.trunk.sending = none ∧ t.trunk.lastServed = s.trunk.lastServed) ∧
        (t.trunk.relay ≠ [] → t.trunk.own = [] → t.trunk.sending = some .relay ∧ t.trunk.lastServed = .relay) ∧
        (t.trunk.relay = [] → t.trunk.own ≠ [] → t.trunk.sending = some .own ∧ t.trunk.lastServed = .own) ∧
        (t.trunk.relay ≠ [] → t.trunk.own ≠ [] →
          t.trunk.sending = some (if s.trunk.lastServed = .relay then .own else .relay) ∧
            t.trunk.sending = some t.trunk.lastServed) ∧
        ReturnOutSends t ∧ OnlyChanges [.returnLane] s t
end

