-- ==== Sys2Proof/Laws/Data.lean ====
section
/-! SUPPORT. Laws of the plain data: arrays, tables of numbered records, line sets, bytes and checks. -/

namespace Sys2Proof

/-! ## Arrays -/

theorem Vec.ext_get {α : Type} {n : Nat} {v w : Vec α n} (h : ∀ i, v.get i = w.get i) : v = w := by
  obtain ⟨l, hl⟩ := v
  obtain ⟨m, hm⟩ := w
  have : l = m := List.ext_getElem (by omega) fun i hi _ => h ⟨i, by omega⟩
  subst this
  rfl

@[simp] theorem Vec.get_fill {α : Type} {n : Nat} (a : α) (i : Fin n) : (Vec.fill n a).get i = a := by
  simp [Vec.get, Vec.fill]

@[simp] theorem Vec.get_tabulate {α : Type} {n : Nat} (f : Fin n → α) (i : Fin n) : (Vec.tabulate f).get i = f i := by
  simp [Vec.get, Vec.tabulate]

@[simp] theorem Vec.get_mapIdx {α β : Type} {n : Nat} (f : Fin n → α → β) (v : Vec α n) (i : Fin n) :
    (v.mapIdx f).get i = f i (v.get i) := by
  simp [Vec.mapIdx]

theorem Vec.get_set {α : Type} {n : Nat} (v : Vec α n) (i j : Fin n) (a : α) :
    (v.set i a).get j = if i = j then a else v.get j := by
  simp [Vec.get, Vec.set, List.getElem_set, Fin.ext_iff]

@[simp] theorem Vec.get_set_self {α : Type} {n : Nat} (v : Vec α n) (i : Fin n) (a : α) : (v.set i a).get i = a := by
  simp [Vec.get_set]

theorem Vec.get_set_of_ne {α : Type} {n : Nat} (v : Vec α n) {i j : Fin n} (h : i ≠ j) (a : α) :
    (v.set i a).get j = v.get j := by
  simp [Vec.get_set, h]

theorem Vec.get_update {α : Type} {n : Nat} (v : Vec α n) (i j : Fin n) (f : α → α) :
    (v.update i f).get j = if i = j then f (v.get j) else v.get j := by
  unfold Vec.update
  rw [Vec.get_set]
  split <;> simp_all

@[simp] theorem Vec.get_update_self {α : Type} {n : Nat} (v : Vec α n) (i : Fin n) (f : α → α) :
    (v.update i f).get i = f (v.get i) := by
  simp [Vec.get_update]

@[simp] theorem Vec.set_get_self {α : Type} {n : Nat} (v : Vec α n) (i : Fin n) : v.set i (v.get i) = v :=
  Vec.ext_get fun j => by rw [Vec.get_set]; split <;> simp_all

theorem Vec.toList_eq_ofFn {α : Type} {n : Nat} (v : Vec α n) : v.toList = List.ofFn v.get := by
  obtain ⟨l, hl⟩ := v
  subst hl
  exact List.ext_getElem (by simp) fun i _ _ => by simp [Vec.get]

theorem finOf?_eq_some {n k : Nat} {i : Fin n} : finOf? n k = some i ↔ i.val = k := by
  unfold finOf?
  split
  · simp [Fin.ext_iff, eq_comm]
  · simp only [reduceCtorEq, false_iff]
    have := i.isLt
    omega

theorem finOf?_eq_none {n k : Nat} : finOf? n k = none ↔ n ≤ k := by
  unfold finOf?
  split <;> simp <;> omega

@[simp] theorem finOf?_val {n : Nat} (i : Fin n) : finOf? n i.val = some i := finOf?_eq_some.mpr rfl

/-! ## Tables -/

theorem Table.find_insert {α : Type} (t : Table α) (k j : Nat) (a : α) :
    (Table.insert k a t).find j = if k = j then some a else t.find j := by
  induction t with
  | nil => simp [Table.insert, Table.find]
  | cons e rest ih =>
    obtain ⟨i, b⟩ := e
    unfold Table.insert
    split
    · simp [Table.find]
    · split
      · subst_vars
        simp only [Table.find]
        split <;> simp_all
      · simp only [Table.find, ih]
        split <;> split <;> simp_all

theorem Table.find_eq_none_of_lt {α : Type} {t : Table α} {k : Nat} (h : ∀ e ∈ t, k < e.1) : t.find k = none := by
  induction t with
  | nil => rfl
  | cons e rest ih =>
    have := h e List.mem_cons_self
    rw [Table.find, if_neg (by omega)]
    exact ih fun x hx => h x (List.mem_cons_of_mem _ hx)

theorem Table.find_erase {α : Type} (t : Table α) (k j : Nat) :
    (Table.erase k t).find j = if k = j then none else t.find j := by
  induction t with
  | nil => simp [Table.erase, Table.find]
  | cons e rest ih =>
    obtain ⟨i, b⟩ := e
    simp only [Table.erase, List.filter_cons] at ih ⊢
    by_cases hi : i = k
    · subst hi
      simp only [ne_eq, not_true_eq_false, decide_false, Bool.false_eq_true, if_false, ih, Table.find]
      split <;> simp_all
    · simp only [ne_eq, hi, not_false_eq_true, decide_true, if_true, Table.find, ih]
      split <;> split <;> simp_all

theorem Table.find_write {α : Type} (t : Table α) (k j : Nat) (r : Option α) :
    (Table.write k r t).find j = if k = j then r else t.find j := by
  cases r with
  | none => exact Table.find_erase t k j
  | some a => exact Table.find_insert t k j a

theorem Table.mem_insert {α : Type} {t : Table α} {k : Nat} {a : α} {e : Nat × α} (h : e ∈ Table.insert k a t) :
    e = (k, a) ∨ e ∈ t := by
  induction t with
  | nil => simp_all [Table.insert]
  | cons f rest ih =>
    obtain ⟨i, b⟩ := f
    unfold Table.insert at h
    split at h
    · simpa using h
    · split at h
      · rcases List.mem_cons.mp h with h | h
        · exact .inl h
        · exact .inr (List.mem_cons_of_mem _ h)
      · rcases List.mem_cons.mp h with h | h
        · exact .inr (h ▸ List.mem_cons_self)
        · exact (ih h).imp id (List.mem_cons_of_mem _)

theorem Table.wf_insert {α : Type} {t : Table α} (h : t.wf) (k : Nat) (a : α) : (Table.insert k a t).wf := by
  induction t with
  | nil => simp [Table.insert, Table.wf]
  | cons e rest ih =>
    obtain ⟨i, b⟩ := e
    rw [Table.wf, List.pairwise_cons] at h
    unfold Table.insert
    split
    · refine List.pairwise_cons.mpr ⟨fun x hx => ?_, List.pairwise_cons.mpr h⟩
      rcases List.mem_cons.mp hx with rfl | hx
      · assumption
      · exact Nat.lt_trans ‹_› (h.1 x hx)
    · split
      · subst_vars
        exact List.pairwise_cons.mpr h
      · refine List.pairwise_cons.mpr ⟨fun x hx => ?_, ih h.2⟩
        rcases Table.mem_insert hx with rfl | hx
        · simp only
          omega
        · exact h.1 x hx

theorem Table.wf_erase {α : Type} {t : Table α} (h : t.wf) (k : Nat) : (Table.erase k t).wf := List.Pairwise.filter _ h

theorem Table.wf_write {α : Type} {t : Table α} (h : t.wf) (k : Nat) (r : Option α) : (Table.write k r t).wf := by
  cases r with
  | none => exact Table.wf_erase h k
  | some a => exact Table.wf_insert h k a

theorem Table.find_eq_some_of_mem {α : Type} {t : Table α} (h : t.wf) {e : Nat × α} (he : e ∈ t) :
    t.find e.1 = some e.2 := by
  induction t with
  | nil => cases he
  | cons f rest ih =>
    obtain ⟨i, b⟩ := f
    rw [Table.wf, List.pairwise_cons] at h
    rcases List.mem_cons.mp he with rfl | he
    · simp [Table.find]
    · have := h.1 e he
      simp only at this
      rw [Table.find, if_neg (by omega)]
      exact ih h.2 he

theorem Table.mem_of_find {α : Type} {t : Table α} {k : Nat} {a : α} (h : t.find k = some a) : (k, a) ∈ t := by
  induction t with
  | nil => cases h
  | cons f rest ih =>
    obtain ⟨i, b⟩ := f
    unfold Table.find at h
    split at h
    · simp_all
    · exact List.mem_cons_of_mem _ (ih h)

end Sys2Proof

namespace Sys2Proof.Machine

/-! ## Line sets -/

theorem mem_addLine {x y : Nat} {set : List Nat} : x ∈ addLine y set ↔ x = y ∨ x ∈ set := by
  induction set with
  | nil => simp [addLine]
  | cons z rest ih =>
    unfold addLine
    split
    · simp
    · split
      · subst_vars
        simp
      · simp only [List.mem_cons, ih]
        tauto

theorem mem_addLines {x : Nat} {ys set : List Nat} : x ∈ addLines ys set ↔ x ∈ ys ∨ x ∈ set := by
  induction ys generalizing set with
  | nil => simp [addLines]
  | cons y rest ih =>
    have : addLines (y :: rest) set = addLines rest (addLine y set) := rfl
    rw [this, ih, mem_addLine, List.mem_cons]
    tauto

theorem addLine_rising {y : Nat} {set : List Nat} (h : set.Pairwise (· < ·)) : (addLine y set).Pairwise (· < ·) := by
  induction set with
  | nil => simp [addLine]
  | cons z rest ih =>
    rw [List.pairwise_cons] at h
    unfold addLine
    split
    · refine List.pairwise_cons.mpr ⟨fun x hx => ?_, List.pairwise_cons.mpr h⟩
      rcases List.mem_cons.mp hx with rfl | hx
      · assumption
      · exact Nat.lt_trans ‹_› (h.1 x hx)
    · split
      · exact List.pairwise_cons.mpr h
      · refine List.pairwise_cons.mpr ⟨fun x hx => ?_, ih h.2⟩
        rcases mem_addLine.mp hx with rfl | hx
        · omega
        · exact h.1 x hx

theorem addLines_rising {ys set : List Nat} (h : set.Pairwise (· < ·)) : (addLines ys set).Pairwise (· < ·) := by
  induction ys generalizing set with
  | nil => exact h
  | cons y rest ih => exact ih (addLine_rising h)

/-! ## Bytes and checks -/

theorem sumBytes_foldl (l : List Byte) (a : Byte) : l.foldl (· + ·) a = a + sumBytes l := by
  induction l generalizing a with
  | nil => simp [sumBytes]
  | cons b rest ih =>
    unfold sumBytes
    rw [List.foldl_cons, List.foldl_cons, ih, ih (0 + b)]
    simp [BitVec.add_assoc]

@[simp] theorem sumBytes_nil : sumBytes [] = 0 := rfl

@[simp] theorem sumBytes_cons (b : Byte) (l : List Byte) : sumBytes (b :: l) = b + sumBytes l := by
  rw [sumBytes, List.foldl_cons, sumBytes_foldl]
  simp

@[simp] theorem sumBytes_append (l m : List Byte) : sumBytes (l ++ m) = sumBytes l + sumBytes m := by
  induction l with
  | nil => simp
  | cons b rest ih => simp [ih, BitVec.add_assoc]

/-- Characters with their check behind them sum to 0 mod 256 (R165, R189). -/
theorem sumBytes_withCheck (l : List Byte) : sumBytes (withCheck l) = 0 := by
  simp [withCheck, checkOf]

@[simp] theorem length_withCheck (l : List Byte) : (withCheck l).length = l.length + 1 := by simp [withCheck]

@[simp] theorem length_bytes1 (n : Nat) : (bytes1 n).length = 1 := rfl
@[simp] theorem length_bytes2 (n : Nat) : (bytes2 n).length = 2 := rfl
@[simp] theorem length_bytes3 (n : Nat) : (bytes3 n).length = 3 := rfl
@[simp] theorem length_bytes4 (n : Nat) : (bytes4 n).length = 4 := rfl

theorem byteAt_append_right (l m : List Byte) (i : Nat) : byteAt (l ++ m) (l.length + i) = byteAt m i := by
  simp [byteAt, List.getElem?_append_right]

theorem byteAt_append_left {l m : List Byte} {i : Nat} (h : i < l.length) : byteAt (l ++ m) i = byteAt l i := by
  simp [byteAt, List.getElem?_append_left h]

/-- A number below 256 is read back from its byte. -/
theorem byteAt_bytes1 {n : Nat} (h : n < 256) : byteAt (bytes1 n) 0 = n := by
  simp [byteAt, bytes1, Nat.mod_eq_of_lt h]

/-- A number below 65,536 is read back from its two bytes (R184). -/
theorem wordAt_bytes2 {n : Nat} (h : n < 65536) : wordAt (bytes2 n) 0 = n := by
  simp [wordAt, byteAt, bytes2]
  omega

/-- A number below 16,777,216 is read back from its three bytes (R184). -/
theorem tripleAt_bytes3 {n : Nat} (h : n < 16777216) : tripleAt (bytes3 n) 0 = n := by
  simp [tripleAt, wordAt, byteAt, bytes3, bytes2]
  omega

/-- A number below 2^32 is read back from its four bytes (R184). -/
theorem quadAt_bytes4 {n : Nat} (h : n < 4294967296) : quadAt (bytes4 n) 0 = n := by
  simp [quadAt, tripleAt, wordAt, byteAt, bytes4, bytes3, bytes2]
  omega

theorem saturate_eq_min (limit n : Nat) : saturate limit n = min limit (n + 1) := by
  unfold saturate
  split <;> omega

theorem saturate_le (limit n : Nat) : saturate limit n ≤ limit := by
  unfold saturate
  split <;> omega

@[simp] theorem PerBus.get_set_self {α : Type} (p : PerBus α) (b : Bus) (x : α) : (p.set b x).get b = x := by
  cases b <;> rfl

theorem PerBus.get_set {α : Type} (p : PerBus α) (b c : Bus) (x : α) :
    (p.set b x).get c = if b = c then x else p.get c := by
  cases b <;> cases c <;> rfl

theorem PerBus.get_set_of_ne {α : Type} (p : PerBus α) {b c : Bus} (h : b ≠ c) (x : α) : (p.set b x).get c = p.get c := by
  cases b <;> cases c <;> first | rfl | exact absurd rfl h

end Sys2Proof.Machine
end

