-- ==== Sys2Proof/Laws/State.lean ====
section
/-! SUPPORT. One lemma per field for every named update of the state, so that no proof unfolds a record update, and
what each update leaves of the scene the display side reads. -/

namespace Sys2Proof.Machine

variable (s : State)

/-! ## State.onDisplay -/

@[simp] theorem State.onDisplay_clock (f : Scene → Display → Display) : (s.onDisplay f).clock = s.clock := rfl
@[simp] theorem State.onDisplay_boards (f : Scene → Display → Display) : (s.onDisplay f).boards = s.boards := rfl
@[simp] theorem State.onDisplay_tables (f : Scene → Display → Display) : (s.onDisplay f).tables = s.tables := rfl
@[simp] theorem State.onDisplay_slots (f : Scene → Display → Display) : (s.onDisplay f).slots = s.slots := rfl
@[simp] theorem State.onDisplay_contacts (f : Scene → Display → Display) :
    (s.onDisplay f).contacts = s.contacts := rfl
@[simp] theorem State.onDisplay_disp (f : Scene → Display → Display) : (s.onDisplay f).disp = f s.scene s.disp := rfl
@[simp] theorem State.onDisplay_buses (f : Scene → Display → Display) : (s.onDisplay f).buses = s.buses := rfl
@[simp] theorem State.onDisplay_light (f : Scene → Display → Display) : (s.onDisplay f).light = s.light := rfl
@[simp] theorem State.onDisplay_trunk (f : Scene → Display → Display) : (s.onDisplay f).trunk = s.trunk := rfl
@[simp] theorem State.onDisplay_mgmt (f : Scene → Display → Display) : (s.onDisplay f).mgmt = s.mgmt := rfl
@[simp] theorem State.onDisplay_pins (f : Scene → Display → Display) : (s.onDisplay f).pins = s.pins := rfl
@[simp] theorem State.onDisplay_freeCount (f : Scene → Display → Display) :
    (s.onDisplay f).freeCount = s.freeCount := rfl
@[simp] theorem State.onDisplay_pending (f : Scene → Display → Display) : (s.onDisplay f).pending = s.pending := rfl
@[simp] theorem State.onDisplay_scene (f : Scene → Display → Display) :
    (s.onDisplay f).scene = s.scene := rfl

/-! ## State.onFlags -/

@[simp] theorem State.onFlags_clock (f : Flags → Flags) : (s.onFlags f).clock = s.clock := rfl
@[simp] theorem State.onFlags_boards (f : Flags → Flags) : (s.onFlags f).boards = s.boards := rfl
@[simp] theorem State.onFlags_tables (f : Flags → Flags) : (s.onFlags f).tables = s.tables := rfl
@[simp] theorem State.onFlags_slots (f : Flags → Flags) : (s.onFlags f).slots = s.slots := rfl
@[simp] theorem State.onFlags_contacts (f : Flags → Flags) : (s.onFlags f).contacts = s.contacts := rfl
@[simp] theorem State.onFlags_disp (f : Flags → Flags) : (s.onFlags f).disp = s.disp := rfl
@[simp] theorem State.onFlags_buses (f : Flags → Flags) : (s.onFlags f).buses = s.buses := rfl
@[simp] theorem State.onFlags_light (f : Flags → Flags) : (s.onFlags f).light = s.light := rfl
@[simp] theorem State.onFlags_trunk (f : Flags → Flags) : (s.onFlags f).trunk = s.trunk := rfl
@[simp] theorem State.onFlags_mgmt (f : Flags → Flags) :
    (s.onFlags f).mgmt = { s.mgmt with flags := f s.mgmt.flags } := rfl
@[simp] theorem State.onFlags_pins (f : Flags → Flags) : (s.onFlags f).pins = s.pins := rfl
@[simp] theorem State.onFlags_freeCount (f : Flags → Flags) : (s.onFlags f).freeCount = s.freeCount := rfl
@[simp] theorem State.onFlags_pending (f : Flags → Flags) : (s.onFlags f).pending = s.pending := rfl
@[simp] theorem State.onFlags_scene (f : Flags → Flags) :
    (s.onFlags f).scene = s.scene := rfl

/-! ## State.refuse -/

@[simp] theorem State.refuse_clock (k : Nat) (r : Reason) : (s.refuse k r).clock = s.clock := rfl
@[simp] theorem State.refuse_boards (k : Nat) (r : Reason) : (s.refuse k r).boards = s.boards := rfl
@[simp] theorem State.refuse_tables (k : Nat) (r : Reason) : (s.refuse k r).tables = s.tables := rfl
@[simp] theorem State.refuse_slots (k : Nat) (r : Reason) : (s.refuse k r).slots = s.slots := rfl
@[simp] theorem State.refuse_contacts (k : Nat) (r : Reason) : (s.refuse k r).contacts = s.contacts := rfl
@[simp] theorem State.refuse_disp (k : Nat) (r : Reason) : (s.refuse k r).disp = s.disp := rfl
@[simp] theorem State.refuse_buses (k : Nat) (r : Reason) : (s.refuse k r).buses = s.buses := rfl
@[simp] theorem State.refuse_light (k : Nat) (r : Reason) : (s.refuse k r).light = s.light := rfl
@[simp] theorem State.refuse_trunk (k : Nat) (r : Reason) : (s.refuse k r).trunk = s.trunk := rfl
@[simp] theorem State.refuse_mgmt (k : Nat) (r : Reason) :
    (s.refuse k r).mgmt = { s.mgmt with refusal := some (k, r), refusals := saturate 255 s.mgmt.refusals } := rfl
@[simp] theorem State.refuse_pins (k : Nat) (r : Reason) : (s.refuse k r).pins = s.pins := rfl
@[simp] theorem State.refuse_freeCount (k : Nat) (r : Reason) : (s.refuse k r).freeCount = s.freeCount := rfl
@[simp] theorem State.refuse_pending (k : Nat) (r : Reason) : (s.refuse k r).pending = s.pending := rfl
@[simp] theorem State.refuse_scene (k : Nat) (r : Reason) :
    (s.refuse k r).scene = s.scene := rfl

/-! ## State.onContact -/

@[simp] theorem State.onContact_clock (n : Fin 4) (f : Contact → Contact) : (s.onContact n f).clock = s.clock := rfl
@[simp] theorem State.onContact_boards (n : Fin 4) (f : Contact → Contact) :
    (s.onContact n f).boards = s.boards := rfl
@[simp] theorem State.onContact_tables (n : Fin 4) (f : Contact → Contact) :
    (s.onContact n f).tables = s.tables := rfl
@[simp] theorem State.onContact_slots (n : Fin 4) (f : Contact → Contact) : (s.onContact n f).slots = s.slots := rfl
@[simp] theorem State.onContact_contacts (n : Fin 4) (f : Contact → Contact) :
    (s.onContact n f).contacts = s.contacts.update n f := rfl
@[simp] theorem State.onContact_disp (n : Fin 4) (f : Contact → Contact) : (s.onContact n f).disp = s.disp := rfl
@[simp] theorem State.onContact_buses (n : Fin 4) (f : Contact → Contact) : (s.onContact n f).buses = s.buses := rfl
@[simp] theorem State.onContact_light (n : Fin 4) (f : Contact → Contact) : (s.onContact n f).light = s.light := rfl
@[simp] theorem State.onContact_trunk (n : Fin 4) (f : Contact → Contact) : (s.onContact n f).trunk = s.trunk := rfl
@[simp] theorem State.onContact_mgmt (n : Fin 4) (f : Contact → Contact) : (s.onContact n f).mgmt = s.mgmt := rfl
@[simp] theorem State.onContact_pins (n : Fin 4) (f : Contact → Contact) : (s.onContact n f).pins = s.pins := rfl
@[simp] theorem State.onContact_freeCount (n : Fin 4) (f : Contact → Contact) :
    (s.onContact n f).freeCount = s.freeCount := rfl
@[simp] theorem State.onContact_pending (n : Fin 4) (f : Contact → Contact) :
    (s.onContact n f).pending = s.pending := rfl
@[simp] theorem State.onContact_scene (n : Fin 4) (f : Contact → Contact) :
    (s.onContact n f).scene = s.scene := rfl

/-! ## State.onBus -/

@[simp] theorem State.onBus_clock (b : Bus) (f : PanelBus → PanelBus) : (s.onBus b f).clock = s.clock := rfl
@[simp] theorem State.onBus_boards (b : Bus) (f : PanelBus → PanelBus) : (s.onBus b f).boards = s.boards := rfl
@[simp] theorem State.onBus_tables (b : Bus) (f : PanelBus → PanelBus) : (s.onBus b f).tables = s.tables := rfl
@[simp] theorem State.onBus_slots (b : Bus) (f : PanelBus → PanelBus) : (s.onBus b f).slots = s.slots := rfl
@[simp] theorem State.onBus_contacts (b : Bus) (f : PanelBus → PanelBus) : (s.onBus b f).contacts = s.contacts := rfl
@[simp] theorem State.onBus_disp (b : Bus) (f : PanelBus → PanelBus) : (s.onBus b f).disp = s.disp := rfl
@[simp] theorem State.onBus_buses (b : Bus) (f : PanelBus → PanelBus) :
    (s.onBus b f).buses = s.buses.set b (f (s.buses.get b)) := rfl
@[simp] theorem State.onBus_light (b : Bus) (f : PanelBus → PanelBus) : (s.onBus b f).light = s.light := rfl
@[simp] theorem State.onBus_trunk (b : Bus) (f : PanelBus → PanelBus) : (s.onBus b f).trunk = s.trunk := rfl
@[simp] theorem State.onBus_mgmt (b : Bus) (f : PanelBus → PanelBus) : (s.onBus b f).mgmt = s.mgmt := rfl
@[simp] theorem State.onBus_pins (b : Bus) (f : PanelBus → PanelBus) : (s.onBus b f).pins = s.pins := rfl
@[simp] theorem State.onBus_freeCount (b : Bus) (f : PanelBus → PanelBus) :
    (s.onBus b f).freeCount = s.freeCount := rfl
@[simp] theorem State.onBus_pending (b : Bus) (f : PanelBus → PanelBus) : (s.onBus b f).pending = s.pending := rfl
@[simp] theorem State.onBus_scene (b : Bus) (f : PanelBus → PanelBus) :
    (s.onBus b f).scene = s.scene := rfl

/-! ## State.setClockLow -/

@[simp] theorem State.setClockLow_clock (b : Bus) (low : Bool) : (s.setClockLow b low).clock = s.clock := rfl
@[simp] theorem State.setClockLow_boards (b : Bus) (low : Bool) : (s.setClockLow b low).boards = s.boards := rfl
@[simp] theorem State.setClockLow_tables (b : Bus) (low : Bool) : (s.setClockLow b low).tables = s.tables := rfl
@[simp] theorem State.setClockLow_slots (b : Bus) (low : Bool) : (s.setClockLow b low).slots = s.slots := rfl
@[simp] theorem State.setClockLow_contacts (b : Bus) (low : Bool) : (s.setClockLow b low).contacts = s.contacts := rfl
@[simp] theorem State.setClockLow_disp (b : Bus) (low : Bool) : (s.setClockLow b low).disp = s.disp := rfl
@[simp] theorem State.setClockLow_buses (b : Bus) (low : Bool) : (s.setClockLow b low).buses = s.buses := rfl
@[simp] theorem State.setClockLow_light (b : Bus) (low : Bool) : (s.setClockLow b low).light = s.light := rfl
@[simp] theorem State.setClockLow_trunk (b : Bus) (low : Bool) : (s.setClockLow b low).trunk = s.trunk := rfl
@[simp] theorem State.setClockLow_mgmt (b : Bus) (low : Bool) : (s.setClockLow b low).mgmt = s.mgmt := rfl
@[simp] theorem State.setClockLow_pins (b : Bus) (low : Bool) :
    (s.setClockLow b low).pins = { s.pins with clockLow := s.pins.clockLow.set b low } := rfl
@[simp] theorem State.setClockLow_freeCount (b : Bus) (low : Bool) :
    (s.setClockLow b low).freeCount = s.freeCount := rfl
@[simp] theorem State.setClockLow_pending (b : Bus) (low : Bool) : (s.setClockLow b low).pending = s.pending := rfl
@[simp] theorem State.setClockLow_scene (b : Bus) (low : Bool) :
    (s.setClockLow b low).scene = s.scene := rfl

/-! ## State.onSettings -/

@[simp] theorem State.onSettings_clock (f : Settings → Settings) : (s.onSettings f).clock = s.clock := rfl
@[simp] theorem State.onSettings_boards (f : Settings → Settings) : (s.onSettings f).boards = s.boards := rfl
@[simp] theorem State.onSettings_tables (f : Settings → Settings) : (s.onSettings f).tables = s.tables := rfl
@[simp] theorem State.onSettings_slots (f : Settings → Settings) : (s.onSettings f).slots = s.slots := rfl
@[simp] theorem State.onSettings_contacts (f : Settings → Settings) : (s.onSettings f).contacts = s.contacts := rfl
@[simp] theorem State.onSettings_disp (f : Settings → Settings) : (s.onSettings f).disp = s.disp := rfl
@[simp] theorem State.onSettings_buses (f : Settings → Settings) : (s.onSettings f).buses = s.buses := rfl
@[simp] theorem State.onSettings_light (f : Settings → Settings) : (s.onSettings f).light = s.light := rfl
@[simp] theorem State.onSettings_trunk (f : Settings → Settings) : (s.onSettings f).trunk = s.trunk := rfl
@[simp] theorem State.onSettings_mgmt (f : Settings → Settings) :
    (s.onSettings f).mgmt = { s.mgmt with settings := f s.mgmt.settings } := rfl
@[simp] theorem State.onSettings_pins (f : Settings → Settings) : (s.onSettings f).pins = s.pins := rfl
@[simp] theorem State.onSettings_freeCount (f : Settings → Settings) : (s.onSettings f).freeCount = s.freeCount := rfl
@[simp] theorem State.onSettings_pending (f : Settings → Settings) : (s.onSettings f).pending = s.pending := rfl
@[simp] theorem State.onSettings_scene (f : Settings → Settings) :
    (s.onSettings f).scene = s.scene := rfl

/-! ## State.onContactSettings -/

@[simp] theorem State.onContactSettings_clock (n : Fin 4) (f : ContactSettings → ContactSettings) :
    (s.onContactSettings n f).clock = s.clock := rfl
@[simp] theorem State.onContactSettings_boards (n : Fin 4) (f : ContactSettings → ContactSettings) :
    (s.onContactSettings n f).boards = s.boards := rfl
@[simp] theorem State.onContactSettings_tables (n : Fin 4) (f : ContactSettings → ContactSettings) :
    (s.onContactSettings n f).tables = s.tables := rfl
@[simp] theorem State.onContactSettings_slots (n : Fin 4) (f : ContactSettings → ContactSettings) :
    (s.onContactSettings n f).slots = s.slots := rfl
@[simp] theorem State.onContactSettings_contacts (n : Fin 4) (f : ContactSettings → ContactSettings) :
    (s.onContactSettings n f).contacts = s.contacts := rfl
@[simp] theorem State.onContactSettings_disp (n : Fin 4) (f : ContactSettings → ContactSettings) :
    (s.onContactSettings n f).disp = s.disp := rfl
@[simp] theorem State.onContactSettings_buses (n : Fin 4) (f : ContactSettings → ContactSettings) :
    (s.onContactSettings n f).buses = s.buses := rfl
@[simp] theorem State.onContactSettings_light (n : Fin 4) (f : ContactSettings → ContactSettings) :
    (s.onContactSettings n f).light = s.light := rfl
@[simp] theorem State.onContactSettings_trunk (n : Fin 4) (f : ContactSettings → ContactSettings) :
    (s.onContactSettings n f).trunk = s.trunk := rfl
@[simp] theorem State.onContactSettings_mgmt (n : Fin 4) (f : ContactSettings → ContactSettings) :
    (s.onContactSettings n f).mgmt = { s.mgmt with settings :=
      { s.mgmt.settings with contacts := s.mgmt.settings.contacts.update n f } } := rfl
@[simp] theorem State.onContactSettings_pins (n : Fin 4) (f : ContactSettings → ContactSettings) :
    (s.onContactSettings n f).pins = s.pins := rfl
@[simp] theorem State.onContactSettings_freeCount (n : Fin 4) (f : ContactSettings → ContactSettings) :
    (s.onContactSettings n f).freeCount = s.freeCount := rfl
@[simp] theorem State.onContactSettings_pending (n : Fin 4) (f : ContactSettings → ContactSettings) :
    (s.onContactSettings n f).pending = s.pending := rfl
@[simp] theorem State.onContactSettings_scene (n : Fin 4) (f : ContactSettings → ContactSettings) :
    (s.onContactSettings n f).scene = s.scene := rfl

/-! ## State.onTrunk -/

@[simp] theorem State.onTrunk_clock (f : TrunkPort → TrunkPort) : (s.onTrunk f).clock = s.clock := rfl
@[simp] theorem State.onTrunk_boards (f : TrunkPort → TrunkPort) : (s.onTrunk f).boards = s.boards := rfl
@[simp] theorem State.onTrunk_tables (f : TrunkPort → TrunkPort) : (s.onTrunk f).tables = s.tables := rfl
@[simp] theorem State.onTrunk_slots (f : TrunkPort → TrunkPort) : (s.onTrunk f).slots = s.slots := rfl
@[simp] theorem State.onTrunk_contacts (f : TrunkPort → TrunkPort) : (s.onTrunk f).contacts = s.contacts := rfl
@[simp] theorem State.onTrunk_disp (f : TrunkPort → TrunkPort) : (s.onTrunk f).disp = s.disp := rfl
@[simp] theorem State.onTrunk_buses (f : TrunkPort → TrunkPort) : (s.onTrunk f).buses = s.buses := rfl
@[simp] theorem State.onTrunk_light (f : TrunkPort → TrunkPort) : (s.onTrunk f).light = s.light := rfl
@[simp] theorem State.onTrunk_trunk (f : TrunkPort → TrunkPort) : (s.onTrunk f).trunk = f s.trunk := rfl
@[simp] theorem State.onTrunk_mgmt (f : TrunkPort → TrunkPort) : (s.onTrunk f).mgmt = s.mgmt := rfl
@[simp] theorem State.onTrunk_pins (f : TrunkPort → TrunkPort) : (s.onTrunk f).pins = s.pins := rfl
@[simp] theorem State.onTrunk_freeCount (f : TrunkPort → TrunkPort) : (s.onTrunk f).freeCount = s.freeCount := rfl
@[simp] theorem State.onTrunk_pending (f : TrunkPort → TrunkPort) : (s.onTrunk f).pending = s.pending := rfl

/-! ## State.useFree -/

@[simp] theorem State.useFree_clock (n : Nat) : (s.useFree n).clock = s.clock := rfl
@[simp] theorem State.useFree_boards (n : Nat) : (s.useFree n).boards = s.boards := rfl
@[simp] theorem State.useFree_tables (n : Nat) : (s.useFree n).tables = s.tables := rfl
@[simp] theorem State.useFree_slots (n : Nat) : (s.useFree n).slots = s.slots := rfl
@[simp] theorem State.useFree_contacts (n : Nat) : (s.useFree n).contacts = s.contacts := rfl
@[simp] theorem State.useFree_disp (n : Nat) : (s.useFree n).disp = s.disp := rfl
@[simp] theorem State.useFree_buses (n : Nat) : (s.useFree n).buses = s.buses := rfl
@[simp] theorem State.useFree_light (n : Nat) : (s.useFree n).light = s.light := rfl
@[simp] theorem State.useFree_trunk (n : Nat) : (s.useFree n).trunk = s.trunk := rfl
@[simp] theorem State.useFree_mgmt (n : Nat) : (s.useFree n).mgmt = s.mgmt := rfl
@[simp] theorem State.useFree_pins (n : Nat) : (s.useFree n).pins = s.pins := rfl
@[simp] theorem State.useFree_freeCount (n : Nat) : (s.useFree n).freeCount = s.freeCount + n := rfl
@[simp] theorem State.useFree_pending (n : Nat) : (s.useFree n).pending = s.pending := rfl
@[simp] theorem State.useFree_scene (n : Nat) :
    (s.useFree n).scene = s.scene := rfl

/-! ## State.withPending -/

@[simp] theorem State.withPending_clock (q : List Instr) : (s.withPending q).clock = s.clock := rfl
@[simp] theorem State.withPending_boards (q : List Instr) : (s.withPending q).boards = s.boards := rfl
@[simp] theorem State.withPending_tables (q : List Instr) : (s.withPending q).tables = s.tables := rfl
@[simp] theorem State.withPending_slots (q : List Instr) : (s.withPending q).slots = s.slots := rfl
@[simp] theorem State.withPending_contacts (q : List Instr) : (s.withPending q).contacts = s.contacts := rfl
@[simp] theorem State.withPending_disp (q : List Instr) : (s.withPending q).disp = s.disp := rfl
@[simp] theorem State.withPending_buses (q : List Instr) : (s.withPending q).buses = s.buses := rfl
@[simp] theorem State.withPending_light (q : List Instr) : (s.withPending q).light = s.light := rfl
@[simp] theorem State.withPending_trunk (q : List Instr) : (s.withPending q).trunk = s.trunk := rfl
@[simp] theorem State.withPending_mgmt (q : List Instr) : (s.withPending q).mgmt = s.mgmt := rfl
@[simp] theorem State.withPending_pins (q : List Instr) : (s.withPending q).pins = s.pins := rfl
@[simp] theorem State.withPending_freeCount (q : List Instr) : (s.withPending q).freeCount = s.freeCount := rfl
@[simp] theorem State.withPending_pending (q : List Instr) : (s.withPending q).pending = q := rfl
@[simp] theorem State.withPending_scene (q : List Instr) :
    (s.withPending q).scene = s.scene := rfl

end Sys2Proof.Machine
end

