-- ==== Sys2Proof/Laws/Buses.lean ====
section
/-! SUPPORT. The characters of a frame, and what a choice of a bus can do. -/

namespace Sys2Proof.Machine

/-! ## Characters -/

@[simp] theorem map_data_markedChars (l : List Byte) : (markedChars l).map BusChar.data = l := by
  cases l <;> simp [markedChars, Function.comp_def]

@[simp] theorem length_markedChars (l : List Byte) : (markedChars l).length = l.length := by
  cases l <;> simp [markedChars]

/-- Of the characters of a frame the first alone is marked. -/
theorem map_marker_markedChars {l : List Byte} (h : l ≠ []) :
    (markedChars l).map BusChar.marker = true :: List.replicate (l.length - 1) false := by
  cases l with
  | nil => exact absurd rfl h
  | cons a l => simp [markedChars, Function.comp_def, List.map_const']

/-- A frame with characters built by `frameChars` is well spelled. -/
theorem Frame.spelled_of_chars {f : Frame} {address command : Nat} {payload : List Byte}
    (h : f.chars = frameChars address command payload) : f.Spelled := by
  unfold Frame.Spelled
  rw [h]
  constructor
  · rw [frameChars, map_marker_markedChars (by simp [withCheck]), length_markedChars]
  · rw [frameChars, map_data_markedChars, sumBytes_withCheck]

/-- Every frame that is built is well spelled (R144, R189). -/
theorem buildFrame_spelled (s : State) (p : Fin 16) (row : PanelRow) (w : FrameWork) : (buildFrame s p row w).Spelled := by
  cases w <;> exact Frame.spelled_of_chars rfl

/-! ## Choosing -/

@[simp] theorem State.onBus_self (s : State) (b : Bus) (f : PanelBus → PanelBus) :
    (s.onBus b f).buses.get b = f (s.buses.get b) := by simp [State.onBus]

/-- What a choice can do: nothing, or, on a bus that may choose, a frame for the first work of the panel chosen takes its
place, its mark off the panel's work (R145 to R147). -/
theorem chooseFrame_cases (b : Bus) (s : State) :
    chooseFrame b s = s ∨
      ∃ p row w, mayChoose s b = true ∧ chosenPanel s b = some p ∧ s.scene.panel p = some row ∧
        chosenWork s.disp p = some w ∧
        chooseFrame b s = State.onBus { s with disp := clearWork p w s.disp } b
          (PanelBus.place (s.settings.busRate.get b) (buildFrame s p row w)) := by
  unfold chooseFrame
  split
  next hm =>
    split
    · exact .inl rfl
    next p hp =>
      split
      next row w hrow hw => exact .inr ⟨p, row, w, hm, hp, hrow, hw, rfl⟩
      next => exact .inl rfl
  next => exact .inl rfl

/-- A bus that may not choose chooses nothing. -/
theorem chooseFrame_of_not {b : Bus} {s : State} (h : mayChoose s b = false) : chooseFrame b s = s := by
  simp [chooseFrame, h]

/-- A bus that was not IDLE may choose no more once it has chosen: its frame is coded ahead. -/
theorem chooseFrame_twice_of_busy {b : Bus} {s : State} (h : (s.buses.get b).state ≠ .idle) :
    chooseFrame b (chooseFrame b s) = chooseFrame b s := by
  obtain e | ⟨p, row, w, -, -, -, -, e⟩ := chooseFrame_cases b s
  · rw [e, e]
  · exact chooseFrame_of_not (by rw [e]; simp [mayChoose, State.onBus, PanelBus.place, h])

/-- Two choices leave nothing to a third (R145, R147; log entry 7). -/
theorem chooseFrame_chooseAgain (b : Bus) (s : State) : chooseFrame b (chooseAgain b s) = chooseAgain b s := by
  unfold chooseAgain
  obtain e | ⟨p, row, w, -, -, -, -, e⟩ := chooseFrame_cases b s
  · rw [e, e, e]
  · refine chooseFrame_twice_of_busy ?_
    rw [e]
    simp only [State.onBus_self, PanelBus.place, PanelBus.start]
    split
    · simp
    next h => exact h

end Sys2Proof.Machine
end

