-- ==== Sys2Proof/Laws/Frames.lean ====
section
/-! SUPPORT. The frame of every shared operation: the parts of the state it can change, said once. -/

namespace Sys2Proof.Machine

/-! ## Frames compose -/

theorem OnlyChanges.refl (ps : List Part) (s : State) : OnlyChanges ps s s := fun part _ => by
  cases part <;> simp [State.agrees]

theorem State.agrees_trans {s t u : State} {part : Part} (h : s.agrees t part) (k : t.agrees u part) :
    s.agrees u part := by
  cases part <;> simp only [State.agrees] at * <;> simp only [*, and_self]

theorem OnlyChanges.trans {ps : List Part} {s t u : State} (h : OnlyChanges ps s t) (k : OnlyChanges ps t u) :
    OnlyChanges ps s u := fun part hp => State.agrees_trans (h part hp) (k part hp)

theorem OnlyChanges.mono {ps qs : List Part} {s t : State} (h : OnlyChanges ps s t) (hsub : ps ⊆ qs) :
    OnlyChanges qs s t := fun part hp => h part fun hm => hp (hsub hm)

/-- The parts are the whole state: a state that differs in none of them is the same. -/
theorem onlyChanges_nil {s t : State} : OnlyChanges [] s t ↔ t = s := by
  constructor
  · intro h
    have part (p : Part) := h p (by simp)
    have clock := part .clock; have boards := part .boards; have tables := part .tables; have slots := part .slots
    have contacts := part .contacts; have phase := part .phase; have runtimes := part .runtimes
    have views := part .views; have synthetic := part .synthetic; have dirty := part .dirty
    have cursors := part .cursors; have panels := part .panels; have busA := part (.bus .busA)
    have busB := part (.bus .busB); have sensors := part .sensors; have groups := part .groups
    have rxTrunk := part (.receiver .trunkIn); have rxReturn := part (.receiver .returnIn)
    have forward := part .forward; have returnLane := part .returnLane; have silence := part .silence
    have counts := part .trunkCounts; have straps := part .straps; have settings := part .settings
    have mode := part .mode; have flags := part .flags; have refusal := part .refusal; have pins := part .pins
    have free := part .freeCount; have pending := part .pending
    obtain ⟨c, bo, ta, sl, co, ⟨⟨a1, a2, a3, a4, a5⟩, ⟨b1, b2⟩, d3⟩, ⟨e1, e2⟩, ⟨l1, l2⟩,
      ⟨t1, t2, t3, t4, t5, t6, t7, t8, t9, t10, t11, t12, t13⟩, ⟨m1, m2, m3, m4, m5⟩, pi, fr, pe⟩ := t
    cases s
    simp_all [State.agrees, PerBus.get, TrunkPort.receiver]
  · rintro rfl
    exact OnlyChanges.refl [] t

/-- A display function's frame: the parts it can change in any state that holds the display. -/
def DispChanges (ps : List Part) (d e : Display) : Prop :=
  ∀ s : State, OnlyChanges ps { s with disp := d } { s with disp := e }

theorem DispChanges.refl (ps : List Part) (d : Display) : DispChanges ps d d := fun _ => OnlyChanges.refl _ _

theorem DispChanges.trans {ps : List Part} {d e f : Display} (h : DispChanges ps d e) (k : DispChanges ps e f) :
    DispChanges ps d f := fun s => (h s).trans (k s)

theorem DispChanges.mono {ps qs : List Part} {d e : Display} (h : DispChanges ps d e) (hsub : ps ⊆ qs) :
    DispChanges qs d e := fun s => (h s).mono hsub

theorem DispChanges.foldl {α : Type} {ps : List Part} {f : Display → α → Display}
    (h : ∀ d a, DispChanges ps d (f d a)) (l : List α) (d : Display) : DispChanges ps d (l.foldl f d) := by
  induction l generalizing d with
  | nil => exact DispChanges.refl ps d
  | cons a rest ih => exact (h d a).trans (ih (f d a))

theorem OnlyChanges.foldl {α : Type} {ps : List Part} {f : State → α → State}
    (h : ∀ s a, OnlyChanges ps s (f s a)) (l : List α) (s : State) : OnlyChanges ps s (l.foldl f s) := by
  induction l generalizing s with
  | nil => exact OnlyChanges.refl ps s
  | cons a rest ih => exact (h s a).trans (ih (f s a))

theorem onDisplay_changes {ps : List Part} {f : Scene → Display → Display}
    (h : ∀ sc d, DispChanges ps d (f sc d)) (s : State) : OnlyChanges ps s (s.onDisplay f) := h s.scene s.disp s

/-! ## The display side -/

theorem mark_changes (d : Display) (p : Fin 16) (row : PanelRow) (ys : List Nat) :
    DispChanges [.dirty] d (d.mark p row ys) := fun s part hp => by
  cases part <;> simp_all [State.agrees, Display.mark]

theorem markPanel_changes (d : Display) (p : Fin 16) (row : PanelRow) : DispChanges [.dirty] d (d.markPanel p row) :=
  mark_changes d p row _

theorem markContent_changes (d : Display) (p : Fin 16) (row : PanelRow) (ys : List Nat) :
    DispChanges [.dirty] d (d.markContent p row ys) := by
  unfold Display.markContent
  split
  · exact mark_changes d p row ys
  · exact DispChanges.refl _ d

theorem setRuntime_changes (d : Display) (z : Nat) (rt : Option ZoneRuntime) :
    DispChanges [.runtimes] d (d.setRuntime z rt) := fun s part hp => by
  cases part <;> simp_all [State.agrees, Display.setRuntime]

theorem onPanel_changes (d : Display) (p : Fin 16) (f : PanelBusRecord → PanelBusRecord) :
    DispChanges [.panels] d (d.onPanel p f) := fun s part hp => by
  cases part <;> simp_all [State.agrees, Display.onPanel]

theorem noticeZone_changes (sc : Scene) (n : Notice) (d : Display) (e : Nat × Fin 16 × PanelRow × Zone) :
    DispChanges noticeParts d (noticeZone sc n d e) := by
  obtain ⟨z, p, row, zone⟩ := e
  unfold noticeZone
  dsimp only
  split
  · split
    · exact DispChanges.refl _ d
    · split
      · exact (markContent_changes d p row _).mono (by decide)
      · split
        · exact ((markContent_changes d p row _).mono (by decide)).trans ((setRuntime_changes _ z _).mono (by decide))
        · exact DispChanges.refl _ d
  · exact DispChanges.refl _ d

theorem takeNotice_changes (n : Notice) (sc : Scene) (d : Display) : DispChanges noticeParts d (takeNotice n sc d) :=
  DispChanges.foldl (noticeZone_changes sc n) _ d

theorem setMessageRuntime_changes (d : Display) (ref : MsgZone) (rt : MessageRuntime) :
    DispChanges [.runtimes, .synthetic] d (d.setMessageRuntime ref rt) := by
  cases ref with
  | zone z => exact (setRuntime_changes d z.val _).mono (by decide)
  | synthetic p => exact fun s part hp => by cases part <;> simp_all [State.agrees, Display.setMessageRuntime]

theorem onMessage_changes (ref : MsgZone)
    (f : MessagePlace → Scene → MessageRuntime → MessageRuntime × Mark) (sc : Scene) (d : Display) :
    DispChanges [.runtimes, .synthetic, .dirty] d (onMessage ref f sc d) := by
  unfold onMessage
  split
  · dsimp only
    refine DispChanges.trans ?_ ((setMessageRuntime_changes _ ref _).mono (by decide))
    split
    · exact (markContent_changes d _ _ _).mono (by decide)
    · exact (mark_changes d _ _ _).mono (by decide)
  · exact DispChanges.refl _ d

theorem turnPage_changes (z : Nat) (sc : Scene) (d : Display) : DispChanges noticeParts d (turnPage z sc d) := by
  unfold turnPage
  split
  · split
    · exact ((markContent_changes d _ _ _).mono (by decide)).trans ((setRuntime_changes _ z _).mono (by decide))
    · exact DispChanges.refl _ d
  · exact DispChanges.refl _ d

theorem stepTile_changes (z : Nat) (sc : Scene) (d : Display) : DispChanges noticeParts d (stepTile z sc d) := by
  unfold stepTile
  split
  · split
    · exact ((markContent_changes d _ _ _).mono (by decide)).trans ((setRuntime_changes _ z _).mono (by decide))
    · exact DispChanges.refl _ d
  · exact DispChanges.refl _ d

theorem tickZone_changes (z : Fin 192) (sc : Scene) (d : Display) :
    DispChanges [.runtimes, .synthetic, .dirty] d (tickZone z sc d) := by
  unfold tickZone
  split
  · split
    · exact (turnPage_changes z.val sc d).mono (by decide)
    · exact (setRuntime_changes d z.val _).mono (by decide)
  · split
    · exact (stepTile_changes z.val sc d).mono (by decide)
    · exact (setRuntime_changes d z.val _).mono (by decide)
  · exact onMessage_changes _ _ sc d
  · exact DispChanges.refl _ d
  · exact DispChanges.refl _ d

theorem tickDwells_changes (sc : Scene) (d : Display) :
    DispChanges [.runtimes, .synthetic, .dirty] d (tickDwells sc d) :=
  (DispChanges.foldl (fun d z => tickZone_changes z sc d) _ d).trans
    (DispChanges.foldl (fun d p => onMessage_changes (.synthetic p) MessagePlace.tick sc d) _ _)

theorem clockZone_changes (sc : Scene) (d : Display) (e : Nat × Fin 16 × PanelRow × Zone) :
    DispChanges noticeParts d (clockZone sc d e) := by
  obtain ⟨z, p, row, zone⟩ := e
  unfold clockZone
  dsimp only
  split
  · split
    · exact DispChanges.refl _ d
    · exact ((markContent_changes d _ _ _).mono (by decide)).trans ((setRuntime_changes _ z _).mono (by decide))
  · exact DispChanges.refl _ d

theorem clockZones_changes (sc : Scene) (d : Display) : DispChanges noticeParts d (clockZones sc d) :=
  DispChanges.foldl (clockZone_changes sc) _ d

theorem restartPaging_changes (p : Fin 16) (sc : Scene) (d : Display) :
    DispChanges [.runtimes] d (restartPaging p sc d) := by
  refine DispChanges.foldl (fun d e => ?_) _ d
  obtain ⟨z, q, row, zone⟩ := e
  dsimp only
  split
  · split
    · exact setRuntime_changes d z _
    · exact DispChanges.refl _ d
  · exact DispChanges.refl _ d

theorem commandView_changes (p : Fin 16) (row : PanelRow) (view : PanelView) (d : Display) :
    DispChanges [.dirty, .panels] d (commandView p row view d) := by
  refine DispChanges.trans ?_ ((markPanel_changes _ p row).mono (by decide))
  unfold Display.commandChange
  split
  · exact (onPanel_changes d p _).mono (by decide)
  · split
    · exact (onPanel_changes d p _).mono (by decide)
    · exact DispChanges.refl _ d

theorem enterView_changes (sc : Scene) (p : Fin 16) (row : PanelRow) (view : PanelView) (d : Display) :
    DispChanges [.views, .synthetic] d (enterView sc p row view d) := fun s part hp => by
  cases part <;> simp_all [State.agrees, enterView]

theorem changeView_changes (sc : Scene) (p : Fin 16) (row : PanelRow) (view : PanelView) (d : Display) :
    DispChanges viewParts d (changeView sc p row view d) := by
  have entered : DispChanges viewParts d (enterView sc p row view (commandView p row view d)) :=
    ((commandView_changes p row view d).mono (by decide)).trans ((enterView_changes sc p row view _).mono (by decide))
  unfold changeView
  split
  · exact entered.trans ((restartPaging_changes p sc _).mono (by decide))
  · exact entered

theorem rechooseView_changes (sc : Scene) (d : Display) (p : Fin 16) :
    DispChanges viewParts d (rechooseView sc d p) := by
  unfold rechooseView
  split
  · exact DispChanges.refl _ d
  · split
    · exact DispChanges.refl _ d
    · exact changeView_changes sc p _ _ d

theorem rechooseViews_changes (sc : Scene) (d : Display) : DispChanges viewParts d (rechooseViews sc d) :=
  DispChanges.foldl (rechooseView_changes sc) _ d

theorem slotChange_changes (slot : Fin 8) (newText : Bool) (sc : Scene) (d : Display) :
    DispChanges viewParts d (slotChange slot newText sc d) :=
  (DispChanges.foldl (fun d ref => (onMessage_changes ref _ sc d).mono (by decide)) _ d).trans
    (rechooseViews_changes sc _)

theorem flipPhase_changes (sc : Scene) (d : Display) : DispChanges [.phase, .dirty] d (flipPhase sc d) := by
  unfold flipPhase
  dsimp only
  have flipped : DispChanges [.phase, .dirty] d
      { d with seq := { d.seq with phase := d.seq.phase.other, langCount := 0 } } :=
    fun s part hp => by cases part <;> simp_all [State.agrees]
  refine flipped.trans (DispChanges.trans (DispChanges.foldl (fun d e => ?_) _ _) (DispChanges.foldl (fun d p => ?_) _ _))
  · obtain ⟨_, p, row, zone⟩ := e
    dsimp only
    split
    · exact (markContent_changes d _ _ _).mono (by decide)
    · exact DispChanges.refl _ d
  · unfold flipPanel
    split
    · exact DispChanges.refl _ d
    · split
      · exact (markPanel_changes d _ _).mono (by decide)
      · split
        · split
          · exact (mark_changes d _ _ _).mono (by decide)
          · exact DispChanges.refl _ d
        · exact DispChanges.refl _ d
      · exact DispChanges.refl _ d

theorem tickLanguage_changes (dwell : Nat) (sc : Scene) (d : Display) :
    DispChanges [.phase, .dirty] d (tickLanguage dwell sc d) := by
  unfold tickLanguage
  split
  · exact flipPhase_changes sc d
  · exact fun s part hp => by cases part <;> simp_all [State.agrees]

theorem startPanel_changes (p : Fin 16) (row : PanelRow) (d : Display) :
    DispChanges [.dirty, .cursors, .panels] d (startPanel p row d) := fun s part hp => by
  cases part <;> simp_all [State.agrees, startPanel]

theorem restartDisplay_changes (sc : Scene) (d : Display) :
    DispChanges (viewParts ++ [.cursors]) d (restartDisplay sc d) := fun s part hp => by
  cases part <;> simp_all [State.agrees, restartDisplay, viewParts]

theorem markGroup_changes (sc : Scene) (n : Fin 4) (d : Display) : DispChanges [.panels] d (markGroup sc n d) :=
  fun s part hp => by cases part <;> simp_all [State.agrees, markGroup]

theorem refreshPanels_changes (cycle : Nat) (sc : Scene) (d : Display) :
    DispChanges [.dirty, .cursors] d (refreshPanels cycle sc d) := by
  unfold refreshPanels
  split
  · exact DispChanges.refl _ d
  · refine DispChanges.foldl (fun d p => ?_) _ d
    unfold refreshPanel
    split
    · exact DispChanges.refl _ d
    · split
      · exact fun s part hp => by cases part <;> simp_all [State.agrees, Display.mark]
      · exact DispChanges.refl _ d

theorem tickProbes_changes (d : Display) : DispChanges [.panels] d (tickProbes d) := fun s part hp => by
  cases part <;> simp_all [State.agrees, tickProbes]

/-! ## Flags, refusals and boards -/

theorem onFlags_changes (s : State) (f : Flags → Flags) : OnlyChanges [.flags] s (s.onFlags f) := fun part hp => by
  cases part <;> simp_all [State.agrees]

theorem refuse_changes (s : State) (k : Nat) (r : Reason) : OnlyChanges [.refusal] s (s.refuse k r) := fun part hp => by
  cases part <;> simp_all [State.agrees]

/-- What a refusal does, once: the record, the count, and nothing else (R179). -/
theorem refuse_refusedOnly (s : State) (k : Nat) (r : Reason) : RefusedOnly k r s (s.refuse k r) :=
  ⟨rfl, saturate_eq_min 255 s.mgmt.refusals, refuse_changes s k r⟩

theorem give_changes (s : State) (n : Option Notice) : OnlyChanges noticeParts s (s.give n) := by
  cases n with
  | none => exact OnlyChanges.refl _ s
  | some n => exact onDisplay_changes (takeNotice_changes n) s

theorem setBoard_changes (s : State) (b : Fin 8) (l : List Entry) (n : Option Notice) :
    OnlyChanges boardParts s (s.setBoard b l n) := by
  refine OnlyChanges.trans (fun part hp => ?_) ((give_changes _ n).mono (by decide))
  cases part <;> simp_all [State.agrees, boardParts]

theorem changeBoards_changes (s : State) (f : Fin 8 → List Entry → List Entry × Option Notice) :
    OnlyChanges boardParts s (s.changeBoards f) := by
  refine OnlyChanges.trans (fun part hp => ?_)
    (OnlyChanges.foldl (fun t b => (give_changes t _).mono (by decide)) _ _)
  cases part <;> simp_all [State.agrees, boardParts]

@[simp] theorem give_boards (s : State) (n : Option Notice) : (s.give n).boards = s.boards :=
  give_changes s n .boards (by decide)

@[simp] theorem setBoard_boards (s : State) (b : Fin 8) (l : List Entry) (n : Option Notice) :
    (s.setBoard b l n).boards = s.boards.set b l := give_boards _ n

/-- What a change of all boards leaves on them. -/
@[simp] theorem changeBoards_boards (s : State) (f : Fin 8 → List Entry → List Entry × Option Notice) :
    (s.changeBoards f).boards = s.boards.mapIdx fun b l => (f b l).1 := by
  unfold State.changeBoards
  generalize List.finRange 8 = bs
  generalize h : ({ s with boards := s.boards.mapIdx fun b l => (f b l).1 } : State) = t
  have ht : t.boards = s.boards.mapIdx fun b l => (f b l).1 := by rw [← h]
  rw [← ht]
  clear h ht
  induction bs generalizing t with
  | nil => rfl
  | cons b rest ih => rw [List.foldl_cons, ih, give_boards]

theorem takeEntry_changes (body : EntryBody) (s : State) :
    OnlyChanges (boardParts ++ [.flags, .refusal]) s (takeEntry body s) := by
  unfold takeEntry
  split
  · unfold postEntry
    dsimp only
    split
    · split
      · exact (setBoard_changes s _ _ _).mono (by decide)
      · exact OnlyChanges.refl _ s
    · split
      · unfold insertFull
        dsimp only
        split
        · exact ((onFlags_changes s _).mono (by decide)).trans ((setBoard_changes _ _ _ _).mono (by decide))
        · exact (onFlags_changes s _).mono (by decide)
      · exact (setBoard_changes s _ _ _).mono (by decide)
  · exact (refuse_changes s _ _).mono (by decide)

theorem takeWithdraw_changes (board sid : Nat) (s : State) :
    OnlyChanges (boardParts ++ [.refusal]) s (takeWithdraw board sid s) := by
  unfold takeWithdraw
  split
  · split
    · exact (refuse_changes s _ _).mono (by decide)
    · dsimp only
      split
      · exact (setBoard_changes s _ _ _).mono (by decide)
      · exact OnlyChanges.refl _ s
  · exact (refuse_changes s _ _).mono (by decide)

theorem takeClearBoard_changes (board : Nat) (s : State) :
    OnlyChanges (boardParts ++ [.refusal]) s (takeClearBoard board s) := by
  unfold takeClearBoard
  split
  · exact (setBoard_changes s _ _ _).mono (by decide)
  · exact (refuse_changes s _ _).mono (by decide)

theorem clockChange_changes (expire : Bool) (s : State) : OnlyChanges boardParts s (clockChange expire s) :=
  (changeBoards_changes s _).trans ((onDisplay_changes clockZones_changes _).mono (by decide))

theorem rederiveAll_changes (s : State) : OnlyChanges boardParts s (rederiveAll s) := changeBoards_changes s _

theorem growAges_changes (s : State) : OnlyChanges boardParts s (growAges s) := changeBoards_changes s _

theorem startNewDay_changes (s : State) : OnlyChanges (boardParts ++ [.flags]) s (startNewDay s) :=
  ((changeBoards_changes s _).mono (by decide)).trans ((onFlags_changes _ _).mono (by decide))

/-! ## The clock -/

theorem setClock_changes (s : State) (c : StationClock) : OnlyChanges [.clock] s { s with clock := c } :=
  fun part hp => by cases part <;> simp_all [State.agrees]

theorem takeTime_changes (second : Nat) (s : State) :
    OnlyChanges (clockParts ++ [.flags, .refusal]) s (takeTime second s) := by
  unfold takeTime
  split
  · exact (refuse_changes s _ _).mono (by decide)
  · dsimp only
    refine OnlyChanges.trans ?_ ((clockChange_changes true _).mono (by decide))
    refine OnlyChanges.trans ?_ ((setClock_changes _ _).mono (by decide))
    split
    · exact (startNewDay_changes s).mono (by decide)
    · exact OnlyChanges.refl _ s

theorem takePulse_changes (s : State) : OnlyChanges (clockParts ++ [.flags]) s (takePulse s) := by
  unfold takePulse
  split
  · exact OnlyChanges.refl _ s
  · split
    · exact (onFlags_changes s _).mono (by decide)
    · dsimp only
      split
      · exact (setClock_changes s _).mono (by decide)
      · exact ((setClock_changes s _).mono (by decide)).trans ((clockChange_changes _ _).mono (by decide))

theorem tickClock_changes (s : State) : OnlyChanges clockParts s (tickClock s) := by
  unfold tickClock
  dsimp only
  split
  · exact (setClock_changes s _).mono (by decide)
  · exact ((setClock_changes s _).mono (by decide)).trans ((clockChange_changes _ _).mono (by decide))

/-! ## Tables, slots and contacts -/

theorem takeTableLoad_changes (table index : Nat) (record : List Byte) (s : State) :
    OnlyChanges [.tables, .refusal] s (takeTableLoad table index record s) := by
  unfold takeTableLoad
  split
  · exact (refuse_changes s _ _).mono (by decide)
  · split
    · exact (refuse_changes s _ _).mono (by decide)
    · split
      · exact fun part hp => by cases part <;> simp_all [State.agrees]
      · exact fun part hp => by cases part <;> simp_all [State.agrees]

theorem takeBankCopy_changes (s : State) : OnlyChanges [.tables, .refusal] s (takeBankCopy s) := by
  unfold takeBankCopy
  split
  · exact (refuse_changes s _ _).mono (by decide)
  · exact fun part hp => by cases part <;> simp_all [State.agrees]

theorem takeBankClear_changes (s : State) : OnlyChanges [.tables, .refusal] s (takeBankClear s) := by
  unfold takeBankClear
  split
  · exact (refuse_changes s _ _).mono (by decide)
  · exact fun part hp => by cases part <;> simp_all [State.agrees]

theorem takeBankSwap_changes (s : State) : OnlyChanges [.tables, .refusal] s (takeBankSwap s) := by
  unfold takeBankSwap
  split
  · exact (refuse_changes s _ _).mono (by decide)
  · split
    · exact (refuse_changes s _ _).mono (by decide)
    · exact fun part hp => by cases part <;> simp_all [State.agrees]

theorem setTables_changes (s : State) (t : TableStore) : OnlyChanges [.tables] s { s with tables := t } :=
  fun part hp => by cases part <;> simp_all [State.agrees]

theorem setSlot_changes (s : State) (i : Fin 8) (slot : Slot) (newText : Bool) :
    OnlyChanges (.slots :: viewParts) s (s.setSlot i slot newText) := by
  refine OnlyChanges.trans (fun part hp => ?_) ((onDisplay_changes (slotChange_changes i newText) _).mono (by decide))
  cases part <;> simp_all [State.agrees]

@[simp] theorem setSlot_slots (s : State) (i : Fin 8) (slot : Slot) (newText : Bool) :
    (s.setSlot i slot newText).slots = s.slots.set i slot := rfl

theorem onContact_changes (s : State) (n : Fin 4) (f : Contact → Contact) :
    OnlyChanges [.contacts] s (s.onContact n f) := fun part hp => by cases part <;> simp_all [State.agrees]

theorem raiseAlert_changes (n : Fin 4) (s : State) : OnlyChanges alertParts s (raiseAlert n s) :=
  ((onContact_changes s n _).mono (by decide)).trans ((setSlot_changes _ _ _ _).mono (by decide))

theorem clearAlert_changes (n : Fin 4) (s : State) : OnlyChanges alertParts s (clearAlert n s) :=
  ((onContact_changes s n _).mono (by decide)).trans ((setSlot_changes _ _ _ _).mono (by decide))

theorem judgeLevel_changes (n : Fin 4) (s : State) : OnlyChanges alertParts s (judgeLevel n s) := by
  unfold judgeLevel
  split
  · exact raiseAlert_changes n s
  · exact OnlyChanges.refl _ s

theorem expireFilter_changes (n : Fin 4) (s : State) : OnlyChanges alertParts s (expireFilter n s) := by
  unfold expireFilter
  dsimp only
  split
  · exact OnlyChanges.refl _ s
  · split
    · exact ((onContact_changes s n _).mono (by decide)).trans (raiseAlert_changes n _)
    · exact (onContact_changes s n _).mono (by decide)

theorem expireSettling_changes (n : Fin 4) (s : State) : OnlyChanges alertParts s (expireSettling n s) := by
  unfold expireSettling
  split
  · exact OnlyChanges.refl _ s
  · exact ((onContact_changes s n _).mono (by decide)).trans (judgeLevel_changes n _)

theorem takeMessage_changes (b : MessageBody) (s : State) :
    OnlyChanges (.refusal :: .slots :: viewParts) s (takeMessage b s) := by
  unfold takeMessage
  split
  · exact (setSlot_changes s _ _ _).mono (by decide)
  · exact (refuse_changes s _ _).mono (by decide)

theorem takeMessageEnd_changes (slot : Nat) (s : State) :
    OnlyChanges (.refusal :: .slots :: viewParts) s (takeMessageEnd slot s) := by
  unfold takeMessageEnd
  split
  · exact (refuse_changes s _ _).mono (by decide)
  · split
    · exact (setSlot_changes s _ _ _).mono (by decide)
    · exact OnlyChanges.refl _ s
    · exact (refuse_changes s _ _).mono (by decide)

theorem tickSlot_changes (i : Fin 8) (s : State) : OnlyChanges (.slots :: viewParts) s (tickSlot i s) := by
  unfold tickSlot
  split
  · split
    · exact setSlot_changes s i _ _
    · exact fun part hp => by cases part <;> simp_all [State.agrees]
  · exact OnlyChanges.refl _ s
  · exact OnlyChanges.refl _ s
  · exact OnlyChanges.refl _ s

theorem tickSlots_changes (s : State) : OnlyChanges (.slots :: viewParts) s (tickSlots s) :=
  OnlyChanges.foldl (fun s i => tickSlot_changes i s) _ s

theorem takeAckAlert_changes (contact : Nat) (s : State) :
    OnlyChanges (.refusal :: alertParts) s (takeAckAlert contact s) := by
  unfold takeAckAlert
  split
  · exact (refuse_changes s _ _).mono (by decide)
  · split
    · exact OnlyChanges.refl _ s
    · split
      · exact (refuse_changes s _ _).mono (by decide)
      · exact (clearAlert_changes _ s).mono (by decide)

theorem takeMode_changes (value : Nat) (s : State) :
    OnlyChanges (.refusal :: .mode :: viewParts) s (takeMode value s) := by
  unfold takeMode
  split
  · exact (refuse_changes s _ _).mono (by decide)
  · split
    · exact OnlyChanges.refl _ s
    · refine OnlyChanges.trans (fun part hp => ?_) ((onDisplay_changes rechooseViews_changes _).mono (by decide))
      cases part <;> simp_all [State.agrees]

/-! ## Light -/

theorem setGroup_changes (s : State) (n : Fin 4) (g : Group) : OnlyChanges [.groups, .panels] s (s.setGroup n g) := by
  unfold State.setGroup
  dsimp only
  split
  · exact fun part hp => by cases part <;> simp_all [State.agrees]
  · refine OnlyChanges.trans (fun part hp => ?_)
      ((onDisplay_changes (fun sc d => markGroup_changes sc n d) _).mono (by decide))
    cases part <;> simp_all [State.agrees]

theorem takeSample_changes (n : Fin 4) (v : Nat) (s : State) :
    OnlyChanges [.sensors, .groups, .panels] s (takeSample n v s) := by
  refine OnlyChanges.trans (fun part hp => ?_) ((setGroup_changes _ n _).mono (by decide))
  cases part <;> simp_all [State.agrees]

theorem refallAll_changes (s : State) : OnlyChanges [.groups, .panels] s (refallAll s) := by
  refine OnlyChanges.foldl (fun s n => ?_) _ s
  unfold refallGroup
  dsimp only
  split
  · exact setGroup_changes s n _
  · exact OnlyChanges.refl _ s

/-! ## Buses -/

theorem onBus_changes (s : State) (b : Bus) (f : PanelBus → PanelBus) : OnlyChanges [.bus b] s (s.onBus b f) :=
  fun part hp => by
    cases part with
    | bus c =>
      have : b ≠ c := fun h => hp (by simp [h])
      simp [State.agrees, PerBus.get_set_of_ne _ this]
    | _ => simp_all [State.agrees]

theorem setClockLow_changes (s : State) (b : Bus) (low : Bool) : OnlyChanges [.pins] s (s.setClockLow b low) :=
  fun part hp => by cases part <;> simp_all [State.agrees]

theorem handBack_changes (sc : Scene) (f : Frame) (d : Display) :
    DispChanges [.dirty, .panels] d (handBack sc f d) := by
  unfold handBack
  split
  · split
    · exact (mark_changes d _ _ _).mono (by decide)
    · exact DispChanges.refl _ d
  · exact (onPanel_changes d _ _).mono (by decide)
  · exact (onPanel_changes d _ _).mono (by decide)

theorem failFrame_changes (sc : Scene) (f : Frame) (d : Display) :
    DispChanges [.dirty, .panels] d (failFrame sc f d) :=
  (handBack_changes sc f d).trans ((onPanel_changes _ _ _).mono (by decide))

theorem acknowledge_changes (sc : Scene) (f : Frame) (d : Display) :
    DispChanges [.dirty, .cursors, .panels] d (acknowledge sc f d) := by
  unfold acknowledge
  split
  · exact startPanel_changes _ _ d
  · exact (onPanel_changes d _ _).mono (by decide)
  · exact (onPanel_changes d _ _).mono (by decide)
  · exact DispChanges.refl _ d

theorem startGap_changes (sc : Scene) (f : Frame) (d : Display) : DispChanges [.panels] d (startGap sc f d) := by
  unfold startGap
  split
  · exact onPanel_changes d _ _
  · exact DispChanges.refl _ d

theorem clearWork_changes (p : Fin 16) (w : FrameWork) (d : Display) :
    DispChanges [.dirty, .panels] d (clearWork p w d) := by
  unfold clearWork
  split
  · exact fun s part hp => by cases part <;> simp_all [State.agrees]
  · exact (onPanel_changes d _ _).mono (by decide)
  · exact (onPanel_changes d _ _).mono (by decide)

theorem chooseFrame_changes (b : Bus) (s : State) : OnlyChanges [.dirty, .panels, .bus b] s (chooseFrame b s) := by
  unfold chooseFrame
  split
  · split
    · exact OnlyChanges.refl _ s
    · split
      · exact (((clearWork_changes _ _ s.disp) s).mono (by simp)).trans ((onBus_changes _ b _).mono (by simp))
      · exact OnlyChanges.refl _ s
  · exact OnlyChanges.refl _ s

theorem chooseAgain_changes (b : Bus) (s : State) : OnlyChanges [.dirty, .panels, .bus b] s (chooseAgain b s) :=
  (chooseFrame_changes b s).trans (chooseFrame_changes b _)

theorem judgeOutcome_changes (f : Frame) (ack : Bool) (s : State) :
    OnlyChanges [.dirty, .cursors, .panels] s (judgeOutcome f ack s) := by
  unfold judgeOutcome
  split
  · exact OnlyChanges.refl _ s
  · refine onDisplay_changes (fun sc d => ?_) s
    refine DispChanges.trans ?_ ((startGap_changes sc _ _).mono (by simp))
    split
    · exact (acknowledge_changes sc _ d).mono (by simp)
    · exact (failFrame_changes sc _ d).mono (by simp)

theorem settleOutcome_changes (b : Bus) (ack : Bool) (s : State) :
    OnlyChanges [.dirty, .cursors, .panels, .bus b] s (settleOutcome b ack s) := by
  unfold settleOutcome
  split
  · exact OnlyChanges.refl _ s
  · exact ((judgeOutcome_changes _ ack s).mono (by simp)).trans ((onBus_changes _ b _).mono (by simp))

theorem takeOutcome_changes (b : Bus) (ack : Bool) (s : State) :
    OnlyChanges [.dirty, .cursors, .panels, .bus b] s (takeOutcome b ack s) :=
  (settleOutcome_changes b ack s).trans ((chooseAgain_changes b _).mono (by simp))

theorem pullClock_changes (b : Bus) (s : State) :
    OnlyChanges [.dirty, .cursors, .panels, .bus b, .pins] s (pullClock b s) := by
  unfold pullClock
  dsimp only
  refine OnlyChanges.trans ((setClockLow_changes s b true).mono (by simp)) ?_
  split
  · exact (onBus_changes _ b _).mono (by simp)
  · exact (takeOutcome_changes b false _).mono (by simp)
  · exact (onBus_changes _ b _).mono (by simp)
  · exact OnlyChanges.refl _ _

theorem releaseClock_changes (b : Bus) (s : State) :
    OnlyChanges [.dirty, .panels, .bus b, .pins] s (releaseClock b s) := by
  unfold releaseClock
  dsimp only
  refine OnlyChanges.trans ((setClockLow_changes s b false).mono (by simp)) ?_
  split
  · exact (onBus_changes _ b _).mono (by simp)
  · exact ((onBus_changes _ b _).mono (by simp)).trans ((chooseAgain_changes b _).mono (by simp))
  · exact OnlyChanges.refl _ _
  · exact OnlyChanges.refl _ _

theorem discardAhead_changes (b : Bus) (s : State) : OnlyChanges [.dirty, .panels, .bus b] s (discardAhead b s) := by
  unfold discardAhead
  split
  · exact OnlyChanges.refl _ s
  · refine OnlyChanges.trans (onDisplay_changes (fun sc d => ?_) s) ((onBus_changes _ b _).mono (by simp))
    exact ((handBack_changes sc _ d).mono (by simp)).trans ((onPanel_changes _ _ _).mono (by simp))

/-! ## Settings and reports -/

theorem onSettings_changes (s : State) (f : Settings → Settings) : OnlyChanges [.settings] s (s.onSettings f) :=
  fun part hp => by cases part <;> simp_all [State.agrees]

theorem noteClamp_changes (s : State) (carried written : Nat) :
    OnlyChanges [.flags] s (s.noteClamp carried written) := by
  unfold State.noteClamp
  split
  · exact OnlyChanges.refl _ s
  · exact onFlags_changes s _

/-- A setting written and noted. -/
theorem setting_changes (s : State) (f : Settings → Settings) (carried written : Nat) :
    OnlyChanges [.settings, .flags] s ((s.onSettings f).noteClamp carried written) :=
  ((onSettings_changes s f).mono (by decide)).trans ((noteClamp_changes _ _ _).mono (by decide))

/-- The parts a SET can reach. -/
def setParts : List Part := [.settings, .flags, .refusal, .bus .busA, .bus .busB, .groups] ++ boardParts ++ alertParts

theorem switchBus_changes (b : Bus) (was on : Bool) (s : State) :
    OnlyChanges [.dirty, .panels, .bus b] s (switchBus b was on s) := by
  unfold switchBus
  split
  · exact OnlyChanges.refl _ s
  · split
    · exact chooseAgain_changes b s
    · exact discardAhead_changes b s

theorem setBusEnable_changes (b : Bus) (v : Nat) (s : State) :
    OnlyChanges [.settings, .flags, .dirty, .panels, .bus b] s (setBusEnable b v s) :=
  OnlyChanges.trans ((setting_changes s _ v _).mono (by simp)) ((switchBus_changes b _ _ _).mono (by simp))

theorem switchContact_changes (n : Fin 4) (was on : Bool) (s : State) :
    OnlyChanges alertParts s (switchContact n was on s) := by
  unfold switchContact
  dsimp only
  split
  · exact OnlyChanges.refl _ _
  · split
    · exact ((onContact_changes _ n _).mono (by decide)).trans (judgeLevel_changes n _)
    · split
      · exact ((onContact_changes s n _).mono (by decide)).trans (clearAlert_changes n _)
      · exact (onContact_changes s n _).mono (by decide)

theorem setContactEnable_changes (n : Fin 4) (v : Nat) (s : State) :
    OnlyChanges ([.settings, .flags] ++ alertParts) s (setContactEnable n v s) :=
  OnlyChanges.trans ((setting_changes s _ v _).mono (by decide)) ((switchContact_changes n _ _ _).mono (by decide))

theorem takeSet_changes (number v : Nat) (s : State) : OnlyChanges setParts s (takeSet number v s) := by
  have plain (f : Settings → Settings) (w : Nat) : OnlyChanges setParts s ((s.onSettings f).noteClamp v w) :=
    (setting_changes s f v w).mono (by decide)
  have enable (b : Bus) : OnlyChanges setParts s (setBusEnable b v s) :=
    (setBusEnable_changes b v s).mono (by cases b <;> decide)
  unfold takeSet
  split
  · exact plain _ _
  · exact plain _ _
  · exact (plain _ _).trans ((rederiveAll_changes _).mono (by decide))
  · exact (plain _ _).trans ((rederiveAll_changes _).mono (by decide))
  · exact (plain _ _).trans ((rederiveAll_changes _).mono (by decide))
  · exact plain _ _
  · exact plain _ _
  · exact plain _ _
  · exact plain _ _
  · exact plain _ _
  · exact enable .busA
  · exact enable .busB
  · exact plain _ _
  · exact (plain _ _).trans ((refallAll_changes _).mono (by decide))
  · split
    · exact (refuse_changes s _ _).mono (by decide)
    · split
      · unfold setContactSetting
        split
        · exact (setContactEnable_changes _ v s).mono (by decide)
        · exact (plain _ _).trans ((judgeLevel_changes _ _).mono (by decide))
        · exact (plain _ _).trans ((judgeLevel_changes _ _).mono (by decide))
        · exact plain _ _
        · exact (onSettings_changes s _).mono (by decide)
        · exact plain _ _
      · exact (refuse_changes s _ _).mono (by decide)

theorem useFree_changes (s : State) (n : Nat) : OnlyChanges [.freeCount] s (s.useFree n) := fun part hp => by
  cases part <;> simp_all [State.agrees]

@[simp] theorem sendForward_fields (t : TrunkPort) :
    t.sendForward.rxTrunk = t.rxTrunk ∧ t.sendForward.rxReturn = t.rxReturn ∧ t.sendForward.forward = t.forward ∧
      t.sendForward.relay = t.relay ∧ t.sendForward.own = t.own ∧ t.sendForward.sending = t.sending ∧
      t.sendForward.lastServed = t.lastServed ∧ t.sendForward.returnOut = t.returnOut ∧
      t.sendForward.silence = t.silence ∧ t.sendForward.silent = t.silent ∧ t.sendForward.abandoned = t.abandoned ∧
      t.sendForward.checkFailures = t.checkFailures ∧ t.sendForward.node = t.node ∧
      t.sendForward.rateCode = t.rateCode :=
  ⟨rfl, rfl, rfl, rfl, rfl, rfl, rfl, rfl, rfl, rfl, rfl, rfl, rfl, rfl⟩

@[simp] theorem arbitrate_fields (t : TrunkPort) :
    t.arbitrate.rxTrunk = t.rxTrunk ∧ t.arbitrate.rxReturn = t.rxReturn ∧ t.arbitrate.forward = t.forward ∧
      t.arbitrate.trunkOut = t.trunkOut ∧ t.arbitrate.relay = t.relay ∧ t.arbitrate.own = t.own ∧ t.arbitrate.silence = t.silence ∧
      t.arbitrate.silent = t.silent ∧ t.arbitrate.abandoned = t.abandoned ∧
      t.arbitrate.checkFailures = t.checkFailures ∧ t.arbitrate.node = t.node ∧
      t.arbitrate.rateCode = t.rateCode := by
  unfold TrunkPort.arbitrate TrunkPort.sendReturn TrunkPort.serve
  split <;> simp

theorem arbitrate_receiver (t : TrunkPort) (lane : Lane) : t.arbitrate.receiver lane = t.receiver lane := by
  cases lane <;> simp [TrunkPort.receiver]

theorem joinOwn_changes (s : State) (cell : List Byte) : OnlyChanges [.returnLane, .flags] s (joinOwn s cell) := by
  unfold joinOwn
  split
  · exact fun part hp => by
      cases part <;> simp_all [State.agrees, TrunkPort.receiver]
  · exact (onFlags_changes s _).mono (by decide)

theorem clearReported_changes (s : State) :
    OnlyChanges [.flags, .refusal, .trunkCounts] s (clearReported s) := fun part hp => by
  cases part with
  | receiver lane => cases lane <;> rfl
  | _ => simp_all [State.agrees, clearReported]

/-- The parts a QUERY can reach. -/
def queryParts : List Part := [.returnLane, .flags, .refusal, .trunkCounts, .freeCount]

theorem answer_changes (kind item : Nat) (contents : List Byte) (s : State) :
    OnlyChanges [.returnLane, .flags] s (answer kind item contents s) := joinOwn_changes s _

theorem takeQuery_changes (kind item : Nat) (s : State) : OnlyChanges queryParts s (takeQuery kind item s) := by
  have refused : OnlyChanges queryParts s (s.refuse queryKind .badField) := (refuse_changes s _ _).mono (by decide)
  have answered (k i : Nat) (c : List Byte) : OnlyChanges queryParts s (answer k i c s) :=
    (answer_changes k i c s).mono (by decide)
  unfold takeQuery
  split
  · unfold takeQueryDevice
    split
    · exact ((useFree_changes s 2).mono (by decide)).trans
        (((clearReported_changes _).mono (by decide)).trans ((answer_changes _ _ _ _).mono (by decide)))
    · exact refused
  · unfold takeQueryBoard
    split
    · exact ((useFree_changes s _).mono (by decide)).trans
        (OnlyChanges.foldl (fun s c => (joinOwn_changes s c).mono (by decide)) _ _)
    · exact refused
  · unfold takeQueryPanel
    split
    · exact ((useFree_changes s _).mono (by decide)).trans ((answer_changes _ _ _ _).mono (by decide))
    · exact refused
  · unfold takeQueryBank
    split
    · exact answered _ _ _
    · exact refused
  · unfold takeQueryInputs
    split
    · exact answered _ _ _
    · exact refused
  · unfold takeQuerySettings
    split
    · exact answered _ _ _
    · exact refused
  · exact refused

/-! ## Trunk -/

theorem setSilence_changes (n : Nat) (silent : Bool) (s : State) :
    OnlyChanges [.silence] s (s.onTrunk (TrunkPort.setSilence n silent)) := fun part hp => by
  cases part with
  | receiver lane => cases lane <;> rfl
  | _ => simp_all [State.agrees, TrunkPort.setSilence]

theorem hearGood_changes (s : State) : OnlyChanges (.silence :: viewParts) s (hearGood s) := by
  unfold hearGood
  dsimp only
  split
  · exact ((setSilence_changes _ _ s).mono (by decide)).trans
      ((onDisplay_changes rechooseViews_changes _).mono (by decide))
  · exact (setSilence_changes _ _ s).mono (by decide)

theorem tickSilence_changes (s : State) : OnlyChanges (.silence :: viewParts) s (tickSilence s) := by
  unfold tickSilence
  split
  · exact ((setSilence_changes _ _ s).mono (by decide)).trans
      ((onDisplay_changes rechooseViews_changes _).mono (by decide))
  · exact (setSilence_changes _ _ s).mono (by decide)

theorem forwardCell_changes (cell : List Byte) (s : State) :
    OnlyChanges [.forward, .flags] s (forwardCell cell s) := by
  unfold forwardCell
  split
  · exact fun part hp => by
      cases part with
      | receiver lane => cases lane <;> rfl
      | _ => simp_all [State.agrees]
  · exact (onFlags_changes s _).mono (by decide)

theorem countCheckFailure_changes (s : State) : OnlyChanges [.trunkCounts] s (countCheckFailure s) := fun part hp => by
  cases part with
  | receiver lane => cases lane <;> rfl
  | _ => simp_all [State.agrees, countCheckFailure]

theorem judgeReturn_changes (cell : List Byte) (s : State) :
    OnlyChanges [.returnLane, .flags, .trunkCounts] s (judgeReturn cell s) := by
  unfold judgeReturn
  split
  · exact (countCheckFailure_changes s).mono (by decide)
  · split
    · exact fun part hp => by
        cases part <;> simp_all [State.agrees, TrunkPort.receiver]
    · exact (onFlags_changes s _).mono (by decide)

theorem setReceiver_changes (s : State) (lane : Lane) (rx : Receiver) :
    OnlyChanges [.receiver lane] s (s.onTrunk fun t => t.setReceiver lane rx) := fun part hp => by
  cases part with
  | receiver l => cases lane <;> cases l <;> simp_all [State.agrees, TrunkPort.receiver, TrunkPort.setReceiver]
  | _ => cases lane <;> simp_all [State.agrees, TrunkPort.setReceiver]

theorem abandonCell_changes (lane : Lane) (rx : Receiver) (s : State) :
    OnlyChanges [.receiver lane, .trunkCounts] s (abandonCell lane rx s) := fun part hp => by
  cases part with
  | receiver l =>
    cases lane <;> cases l <;> simp_all [State.agrees, TrunkPort.receiver, TrunkPort.setReceiver, abandonCell]
  | _ => cases lane <;> simp_all [State.agrees, TrunkPort.setReceiver, abandonCell]

/-- A RESTART keeps the settings, the pins, the free values and the queue, and restarts the Table Store (R182). -/
theorem takeRestart_kept (broadcast : Bool) (s : State) :
    (takeRestart broadcast s).mgmt.settings = s.mgmt.settings ∧ (takeRestart broadcast s).pins = s.pins ∧
      (takeRestart broadcast s).tables = s.tables.restarted ∧ (takeRestart broadcast s).freeCount = s.freeCount ∧
      (takeRestart broadcast s).pending = s.pending := ⟨rfl, rfl, rfl, rfl, rfl⟩

theorem takenParts_all {part : Part} (hpins : part ≠ .pins) (hpending : part ≠ .pending) : part ∈ takenParts := by
  cases part with
  | bus b => cases b <;> decide
  | receiver lane => cases lane <;> decide
  | pins => exact absurd rfl hpins
  | pending => exact absurd rfl hpending
  | _ => decide

theorem subset_takenParts {ps : List Part} (hpins : Part.pins ∉ ps) (hpending : Part.pending ∉ ps) :
    ps ⊆ takenParts := fun _ hp =>
  takenParts_all (fun h => hpins (h ▸ hp)) fun h => hpending (h ▸ hp)

theorem takeRestart_changes (broadcast : Bool) (s : State) : OnlyChanges takenParts s (takeRestart broadcast s) :=
  fun part hp => by
    by_cases hpins : part = .pins
    · subst hpins; rfl
    · by_cases hpending : part = .pending
      · subst hpending; rfl
      · exact absurd (takenParts_all hpins hpending) hp

theorem handToOwner_changes (kind : Nat) (broadcast : Bool) (body : List Byte) (s : State) :
    OnlyChanges takenParts s (handToOwner kind broadcast body s) := by
  unfold handToOwner
  split
  · exact (takeEntry_changes _ s).mono (by decide)
  · exact (takeWithdraw_changes _ _ s).mono (by decide)
  · exact (takeClearBoard_changes _ s).mono (by decide)
  · exact (takeTime_changes _ s).mono (by decide)
  · exact (takeMessage_changes _ s).mono (by decide)
  · exact (takeMessageEnd_changes _ s).mono (by decide)
  · exact (takeTableLoad_changes _ _ _ s).mono (by decide)
  · exact (takeBankCopy_changes s).mono (by decide)
  · exact (takeBankClear_changes s).mono (by decide)
  · exact (takeBankSwap_changes s).mono (by decide)
  · exact (takeSet_changes _ _ s).mono (by decide)
  · exact (takeMode_changes _ s).mono (by decide)
  · exact (takeAckAlert_changes _ s).mono (by decide)
  · exact (takeQuery_changes _ _ s).mono (by decide)
  · exact takeRestart_changes _ s
  · exact OnlyChanges.refl _ s

theorem takeCell_changes (cell : List Byte) (s : State) : OnlyChanges takenParts s (takeCell cell s) := by
  unfold takeCell
  dsimp only
  split
  · exact (refuse_changes s _ _).mono (by decide)
  · exact (refuse_changes s _ _).mono (by decide)
  · exact handToOwner_changes _ _ _ s

theorem judgeTrunk_changes (cell : List Byte) (s : State) : OnlyChanges takenParts s (judgeTrunk cell s) := by
  have heard := (hearGood_changes s).mono (qs := takenParts) (by decide)
  have passed := heard.trans ((forwardCell_changes cell _).mono (by decide))
  unfold judgeTrunk
  dsimp only
  split
  · exact (countCheckFailure_changes s).mono (by decide)
  · split
    · split
      · exact passed.trans (takeCell_changes cell _)
      · exact heard.trans (takeCell_changes cell _)
    · split
      · exact passed
      · exact heard

theorem completeCell_changes (lane : Lane) (cell : List Byte) (s : State) :
    OnlyChanges (laneParts lane) s (completeCell lane cell s) := by
  cases lane with
  | trunkIn => exact ((setReceiver_changes s .trunkIn _).mono (by decide)).trans (judgeTrunk_changes cell _)
  | returnIn =>
    exact ((setReceiver_changes s .returnIn _).mono (by decide)).trans ((judgeReturn_changes cell _).mono (by decide))

theorem arriveCell_changes (lane : Lane) (cell : List Byte) (s : State) :
    OnlyChanges (laneParts lane) s (arriveCell lane cell s) := by
  unfold arriveCell
  split
  · refine OnlyChanges.trans ?_ (completeCell_changes lane cell _)
    split
    · exact OnlyChanges.refl _ s
    · exact (abandonCell_changes lane _ s).mono (by cases lane <;> decide)
  · exact OnlyChanges.refl _ s

theorem arriveChar_changes (lane : Lane) (ch : LineChar) (s : State) :
    OnlyChanges (laneParts lane) s (arriveChar lane ch s) := by
  unfold arriveChar
  split
  · exact OnlyChanges.refl _ s
  · exact (setReceiver_changes s lane _).mono (by cases lane <;> decide)
  · exact (abandonCell_changes lane _ s).mono (by cases lane <;> decide)
  · exact completeCell_changes lane _ s

/-! ## The timebase second -/

theorem applySwap_changes (s : State) :
    OnlyChanges (viewParts ++ [.tables, .cursors, .bus .busA, .bus .busB, .groups]) s (applySwap s) := by
  refine OnlyChanges.trans (fun part hp => ?_) ((onDisplay_changes restartDisplay_changes _).mono (by decide))
  cases part with
  | bus b => cases b <;> exact absurd (by decide) hp
  | _ => simp_all [State.agrees, LightUnit.remap]

theorem tickSwap_changes (s : State) :
    OnlyChanges (viewParts ++ [.tables, .cursors, .bus .busA, .bus .busB, .groups]) s (tickSwap s) := by
  unfold tickSwap
  split
  · exact applySwap_changes s
  · exact OnlyChanges.refl _ s

/-- What a timebase second can change. -/
theorem takeSecond_changes (s : State) : OnlyChanges (reach .timebaseSecond) s (takeSecond s) := by
  unfold takeSecond
  dsimp only
  refine OnlyChanges.trans ?_ ((onDisplay_changes (fun _ d => tickProbes_changes d) _).mono (by decide))
  refine OnlyChanges.trans ?_ ((onDisplay_changes (fun sc d => refreshPanels_changes _ sc d) _).mono (by decide))
  refine OnlyChanges.trans ?_ ((tickSwap_changes _).mono (by decide))
  refine OnlyChanges.trans ?_ ((tickSilence_changes _).mono (by decide))
  refine OnlyChanges.trans ?_ ((onDisplay_changes (fun sc d => tickLanguage_changes _ sc d) _).mono (by decide))
  refine OnlyChanges.trans ?_ ((onDisplay_changes tickDwells_changes _).mono (by decide))
  refine OnlyChanges.trans ?_ ((tickSlots_changes _).mono (by decide))
  exact ((tickClock_changes s).mono (by decide)).trans ((growAges_changes _).mono (by decide))

end Sys2Proof.Machine
end

