-- ==== Sys2Proof/Laws/Invariants.lean ====
section
/-! SUPPORT. How an invariant is shown to be kept by every step: the commands that carry a whole cell, a character, or an
unlisted number come down to the other commands and to the Trunk Port's own operations, once and for all. -/

namespace Sys2Proof.Machine

/-! ## What a property reads -/

/-- A property that reads only some parts of the state. -/
def DependsOn (parts : List Part) (P : State → Prop) : Prop :=
  ∀ s t : State, (∀ part ∈ parts, s.agrees t part) → P s → P t

/-- A property is kept by a change that reaches none of the parts it reads. -/
theorem DependsOn.kept {parts ps : List Part} {P : State → Prop} (h : DependsOn parts P) {s t : State}
    (hframe : OnlyChanges ps s t) (hdisjoint : ∀ part ∈ parts, part ∉ ps) (hs : P s) : P t :=
  h s t (fun part hp => hframe part (hdisjoint part hp)) hs

/-! ## Elementary commands -/

/-- A command that is not a whole cell, a character, or a SET or QUERY by an unlisted number. -/
def elementary : Instr → Bool
  | .trunkCell _ | .returnCell _ | .characterArrival _ _ | .cellAbandoned _ _ | .setUnknownSetting _ _
  | .queryUnknownKind _ _ => false
  | _ => true

/-- What a property must be kept by, beside the elementary commands, for every command to keep it. -/
structure TrunkKept (P : State → Prop) : Prop where
  refuse : ∀ s kind reason, P s → P (s.refuse kind reason)
  setReceiver : ∀ s lane rx, rx.Ok → P s → P (s.onTrunk fun t => t.setReceiver lane rx)
  abandon : ∀ s lane rx, rx.Ok → P s → P (abandonCell lane rx s)
  checkFailure : ∀ s, P s → P (countCheckFailure s)
  hear : ∀ s, P s → P (hearGood s)
  forward : ∀ s cell, GoodCell cell → P s → P (forwardCell cell s)
  judgeReturn : ∀ s cell, cellShape cell = true → P s → P (judgeReturn cell s)

/-- A property that every elementary command keeps. -/
def ElementaryKept (P : State → Prop) : Prop :=
  ∀ c s t, elementary c = true → exec c s = .next t → P s → P t

theorem takeSet_keeps {P : State → Prop} (h : TrunkKept P) (hc : ElementaryKept P) (number v : Nat) {s : State}
    (hs : P s) : P (takeSet number v s) := by
  unfold takeSet
  split
  · exact hc (.setDepartureHold v) s _ rfl rfl hs
  · exact hc (.setCancelHold v) s _ rfl rfl hs
  · exact hc (.setStalePeriod v) s _ rfl rfl hs
  · exact hc (.setCountdownLimit v) s _ rfl rfl hs
  · exact hc (.setDelayThreshold v) s _ rfl rfl hs
  · exact hc (.setLanguageDwell v) s _ rfl rfl hs
  · exact hc (.setSilenceLimit v) s _ rfl rfl hs
  · exact hc (.setRefreshCycle v) s _ rfl rfl hs
  · exact hc (.setBusRate .busA v) s _ rfl rfl hs
  · exact hc (.setBusRate .busB v) s _ rfl rfl hs
  · exact hc (.setBusEnable .busA v) s _ rfl rfl hs
  · exact hc (.setBusEnable .busB v) s _ rfl rfl hs
  · exact hc (.setHoldLimit v) s _ rfl rfl hs
  · exact hc (.setSensorFallbackLevel v) s _ rfl rfl hs
  · split
    · exact h.refuse s _ _ hs
    · split
      · rename_i n _
        unfold setContactSetting
        split
        · exact hc (.setContactEnable n v) s _ rfl rfl hs
        · exact hc (.setContactMode n v) s _ rfl rfl hs
        · exact hc (.setContactPolarity n v) s _ rfl rfl hs
        · exact hc (.setContactFilter n v) s _ rfl rfl hs
        · exact hc (.setContactPanelMask n v) s _ rfl rfl hs
        · exact hc (.setContactAlertString n v) s _ rfl rfl hs
      · exact h.refuse s _ _ hs

theorem takeQuery_keeps {P : State → Prop} (h : TrunkKept P) (hc : ElementaryKept P) (kind item : Nat) {s : State}
    (hs : P s) : P (takeQuery kind item s) := by
  unfold takeQuery
  split
  · exact hc (.queryDevice item) s _ rfl rfl hs
  · exact hc (.queryBoard item) s _ rfl rfl hs
  · exact hc (.queryPanel item) s _ rfl rfl hs
  · exact hc (.queryBank item) s _ rfl rfl hs
  · exact hc (.queryInputs item) s _ rfl rfl hs
  · exact hc (.querySettings item) s _ rfl rfl hs
  · exact h.refuse s _ _ hs

theorem handToOwner_keeps {P : State → Prop} (h : TrunkKept P) (hc : ElementaryKept P) (kind : Nat) (broadcast : Bool)
    (body : List Byte) {s : State} (hs : P s) : P (handToOwner kind broadcast body s) := by
  unfold handToOwner
  split
  · exact hc (.entry _) s _ rfl rfl hs
  · exact hc (.withdraw _ _) s _ rfl rfl hs
  · exact hc (.clearBoard _) s _ rfl rfl hs
  · exact hc (.time _) s _ rfl rfl hs
  · exact hc (.message _) s _ rfl rfl hs
  · exact hc (.messageEnd _) s _ rfl rfl hs
  · exact hc (.tableLoad _ _ _) s _ rfl rfl hs
  · exact hc .bankCopy s _ rfl rfl hs
  · exact hc .bankClear s _ rfl rfl hs
  · exact hc .bankSwap s _ rfl rfl hs
  · exact takeSet_keeps h hc _ _ hs
  · exact hc (.mode _) s _ rfl rfl hs
  · exact hc (.ackAlert _) s _ rfl rfl hs
  · exact takeQuery_keeps h hc _ _ hs
  · exact hc (.restart _) s _ rfl rfl hs
  · exact hs

theorem takeCell_keeps {P : State → Prop} (h : TrunkKept P) (hc : ElementaryKept P) (cell : List Byte) {s : State}
    (hs : P s) : P (takeCell cell s) := by
  unfold takeCell
  dsimp only
  split
  · exact h.refuse s _ _ hs
  · exact h.refuse s _ _ hs
  · exact handToOwner_keeps h hc _ _ _ hs

theorem judgeTrunk_keeps {P : State → Prop} (h : TrunkKept P) (hc : ElementaryKept P) {cell : List Byte}
    (hshape : cellShape cell = true) {s : State} (hs : P s) : P (judgeTrunk cell s) := by
  unfold judgeTrunk
  dsimp only
  split
  · exact h.checkFailure s hs
  · have heard := h.hear s hs
    have passed := h.forward _ cell ⟨hshape, not_not.mp ‹_›⟩ heard
    split
    · split
      · exact takeCell_keeps h hc cell passed
      · exact takeCell_keeps h hc cell heard
    · split
      · exact passed
      · exact heard

theorem completeCell_keeps {P : State → Prop} (h : TrunkKept P) (hc : ElementaryKept P) (lane : Lane)
    {cell : List Byte} (hshape : cellShape cell = true) {s : State} (hs : P s) : P (completeCell lane cell s) := by
  have hunting := h.setReceiver s lane .hunt trivial hs
  cases lane with
  | trunkIn => exact judgeTrunk_keeps h hc hshape hunting
  | returnIn => exact h.judgeReturn _ cell hshape hunting

theorem arriveCell_keeps {P : State → Prop} (h : TrunkKept P) (hc : ElementaryKept P) (lane : Lane)
    (cell : List Byte) {s : State} (hs : P s) : P (arriveCell lane cell s) := by
  unfold arriveCell
  split
  · refine completeCell_keeps h hc lane ‹_› ?_
    split
    · exact hs
    · exact h.abandon s lane .hunt trivial hs
  · exact hs

/-! ## Receivers -/

/-- The characters a receiver has collected are a whole cell exactly when they have the shape of one, where the length
read is a length (R165, R166). -/
theorem cellShape_of_isWhole {chars : List Byte} (h : isWhole chars = true) (hlen : byteAt chars 2 ≤ maxLength) :
    cellShape chars = true := by
  match chars with
  | [] | [_] | [_, _] => simp [isWhole] at h
  | _ :: _ :: len :: rest =>
    simp only [isWhole, byteAt, List.length_cons, decide_eq_true_eq, maxLength, List.getD_cons_succ,
      List.getD_cons_zero] at h hlen
    simp only [cellShape, Bool.and_eq_true, decide_eq_true_eq]
    omega

/-- What an action leaves is in order: a receiver in order, or a whole cell (R166). -/
def CharAction.Ok : CharAction → Prop
  | .ignore => True
  | .keep rx | .abandon rx => rx.Ok
  | .complete cell => cellShape cell = true

/-- What a receiver in order does with a character: it stays in order, and what it completes is a whole cell (R166). -/
theorem charAction_ok {rx : Receiver} (h : rx.Ok) (ch : LineChar) : (charAction rx ch).Ok := by
  unfold charAction
  cases rx with
  | hunt =>
    dsimp only
    split
    · exact ⟨by simp, by simp⟩
    · trivial
  | collect chars =>
    obtain ⟨hne, hlen⟩ := h
    have third : 3 ≤ chars.length → byteAt (chars ++ [ch.data]) 2 = byteAt chars 2 := fun hc =>
      byteAt_append_left (by omega)
    have newThird : chars.length = 2 → byteAt (chars ++ [ch.data]) 2 = ch.data.toNat := fun hc => by
      have := byteAt_append_right chars [ch.data] 0
      rw [hc] at this
      simpa [byteAt] using this
    have bound : ¬(chars.length = 2 ∧ maxLength < ch.data.toNat) → 2 ≤ chars.length →
        byteAt (chars ++ [ch.data]) 2 ≤ maxLength := fun hb hc => by
      by_cases h2 : chars.length = 2
      · rw [newThird h2]; omega
      · rw [third (by omega)]; exact (hlen (by omega)).1
    dsimp only
    split
    · trivial
    · split
      · exact ⟨by simp, by simp⟩
      · split
        · trivial
        · split
          · have h3 : 2 ≤ chars.length := by
              have := ‹isWhole _ = true›
              simp only [isWhole, decide_eq_true_eq, List.length_append, List.length_singleton] at this
              omega
            exact cellShape_of_isWhole ‹_› (bound ‹_› h3)
          · refine ⟨by simp, fun hc => ⟨bound ‹_› (by simpa using hc), ?_⟩⟩
            have hw := ‹¬isWhole _ = true›
            simp only [isWhole, decide_eq_true_eq, List.length_append, List.length_singleton] at hw hc ⊢
            by_cases h2 : chars.length = 2
            · omega
            · have := hlen (by omega)
              rw [third (by omega)] at hw ⊢
              omega

theorem arriveChar_keeps {P : State → Prop} (h : TrunkKept P) (hc : ElementaryKept P) (lane : Lane) (ch : LineChar)
    {s : State} (hrx : (s.trunk.receiver lane).Ok) (hs : P s) : P (arriveChar lane ch s) := by
  have hact := charAction_ok hrx ch
  unfold arriveChar
  split <;> rename_i heq <;> rw [heq] at hact
  · exact hs
  · exact h.setReceiver s lane _ hact hs
  · exact h.abandon s lane _ hact hs
  · exact completeCell_keeps h hc lane hact hs

/-- A property that the elementary commands and the Trunk Port's operations keep, and that holds only where both
receivers are in order, is kept by every command. -/
theorem exec_keeps {P : State → Prop} (h : TrunkKept P) (hc : ElementaryKept P)
    (hrx : ∀ s, P s → s.trunk.rxTrunk.Ok ∧ s.trunk.rxReturn.Ok) (c : Instr) {s t : State}
    (hexec : exec c s = .next t) (hs : P s) : P t := by
  have hlane (lane : Lane) : (s.trunk.receiver lane).Ok := by
    cases lane
    · exact (hrx s hs).1
    · exact (hrx s hs).2
  cases c with
  | trunkCell cell =>
    obtain rfl := Host.Outcome.next.inj hexec
    exact arriveCell_keeps h hc .trunkIn cell hs
  | returnCell cell =>
    obtain rfl := Host.Outcome.next.inj hexec
    exact arriveCell_keeps h hc .returnIn cell hs
  | characterArrival lane ch =>
    obtain rfl := Host.Outcome.next.inj hexec
    exact arriveChar_keeps h hc lane ch (hlane lane) hs
  | cellAbandoned lane ch =>
    obtain rfl := Host.Outcome.next.inj hexec
    have hact := charAction_ok (hlane lane) ch
    split <;> rename_i heq <;> rw [heq] at hact
    · exact h.abandon s lane _ hact hs
    all_goals exact hs
  | setUnknownSetting number v =>
    obtain rfl := Host.Outcome.next.inj hexec
    exact takeSet_keeps h hc number v hs
  | queryUnknownKind kind item =>
    obtain rfl := Host.Outcome.next.inj hexec
    exact takeQuery_keeps h hc kind item hs
  | _ => exact hc _ s t rfl hexec hs

/-- The same of every step, for a property that does not read the queue of commands. -/
theorem step_keeps {P : State → Prop} (h : TrunkKept P) (hc : ElementaryKept P)
    (hrx : ∀ s, P s → s.trunk.rxTrunk.Ok ∧ s.trunk.rxReturn.Ok) (hq : ∀ s q, P s → P (s.withPending q)) {s t : State}
    (hstep : step s = .next t) (hs : P s) : P t := by
  unfold step at hstep
  split at hstep
  · obtain rfl := Host.Outcome.next.inj hstep
    exact hs
  · exact exec_keeps h hc hrx _ hstep (hq s _ hs)

end Sys2Proof.Machine
end

