-- ==== Sys2Proof/Laws/Trunk.lean ====
section
/-! SUPPORT. What the trunk lines send, and what the return arbiter can do. -/

namespace Sys2Proof.Machine

/-! ## A cell on a line (R165) -/

@[simp] theorem TrunkPort.transmit_data (t : TrunkPort) (cell : List Byte) :
    (t.transmit cell).chars.map BusChar.data = cell := map_data_markedChars cell

@[simp] theorem TrunkPort.transmit_rate (t : TrunkPort) (cell : List Byte) :
    (t.transmit cell).rate = trunkRate t.rateCode := rfl

/-- Of the characters of a cell that is sent the first alone is marked. -/
theorem TrunkPort.transmit_marker {t : TrunkPort} {cell : List Byte} {i : Nat} {ch : BusChar}
    (h : (t.transmit cell).chars[i]? = some ch) : ch.marker = decide (i = 0) := by
  change (markedChars cell)[i]? = some ch at h
  match cell, i with
  | [], _ => simp [markedChars] at h
  | _ :: _, 0 => simp [markedChars] at h; simp [← h]
  | _ :: _, i + 1 =>
    simp only [markedChars, List.getElem?_cons_succ, List.getElem?_map, Option.map_eq_some_iff] at h
    obtain ⟨b, -, rfl⟩ := h
    simp

@[simp] theorem TrunkPort.sendForward_trunkOut (t : TrunkPort) :
    t.sendForward.trunkOut = t.forward.head?.map t.transmit := rfl

/-! ## The return arbiter (R172) -/

/-- What the arbiter can do: start the next queue on an idle RETURN_OUT, or nothing. -/
theorem TrunkPort.serve_cases (t : TrunkPort) :
    (∃ q, t.sending = none ∧ t.nextServed = some q ∧ t.serve = { t with sending := some q, lastServed := q }) ∨
      (t.sending = none → t.nextServed = none) ∧ t.serve = t := by
  unfold TrunkPort.serve
  split
  next q hs hq => exact .inl ⟨q, hs, hq, rfl⟩
  next h =>
    refine .inr ⟨fun hs => ?_, rfl⟩
    cases hq : t.nextServed with
    | none => rfl
    | some q => exact absurd hq (h q hs)

/-- RETURN_OUT sends what the arbiter serves. -/
theorem TrunkPort.arbitrate_returnOut (t : TrunkPort) :
    t.arbitrate.returnOut = t.arbitrate.sending.bind fun q => (t.arbitrate.queue q).head?.map t.arbitrate.transmit := by
  simp only [TrunkPort.arbitrate, TrunkPort.sendReturn]
  cases t.serve.sending with
  | none => rfl
  | some q => cases q <;> rfl

end Sys2Proof.Machine
end

