-- ==== Sys2Proof/Tests/Slice0.lean ====
section
/-! SUPPORT. Tests: ill-formed commands refused by each check of WellFormed, the manual's worked figures, and a witness
for the hypotheses of each statement. Every expected value is the manual's, or worked by hand from its rules. -/

namespace Sys2Proof.Tests

open Sys2Proof.Machine Sys2Proof.Machine.Claims

/-! ## States for tests -/

/-- What a command leaves; a machine that stops leaves the state it was given. -/
def after (c : Instr) (s : State) : State :=
  match exec c s with
  | .next t => t
  | .fault _ | .refused _ => s

/-- Several commands, one after the other. -/
def afterAll (cs : List Instr) (s : State) : State := cs.foldl (fun s c => after c s) s

/-- A bank with two panels: panel 0, bus A, address 7, 32 by 16, FULL, with a fallback string, on sensor 0; panel 1,
bus A, address 8, ZONES, class 2, FIXED. Panel 0 has a live ROWS zone, a paged one, a MESSAGE zone with an idle string, a
CLOCK zone in ALTERNATE and a stepping TILE zone. -/
def bank : Bank where
  fonts := [(0, ⟨7, 1, 0⟩)]
  glyphs := [(0, ⟨5, 7, [0, 0, 0, 0, 0, 0, 0]⟩), (1, ⟨5, 7, [0xF8, 0, 0, 0, 0, 0, 0xF8]⟩)]
  strings := [(0, ⟨[1, 1], some [0]⟩), (3, ⟨[1], none⟩)]
  palettes := [(0, ⟨List.replicate 48 200, [1, 2, 3, 4, 5, 6, 7, 8]⟩)]
  tiles := []
  curve := some [(32, 40), (96, 120)]
  formats := [(0, [⟨.scheduled, 0, 32, .left, .time⟩])]
  panels := [(0, ⟨.busA, 7, 32, 16, 0, 0, 1, .sensor 0, .full, 0, 20, some 3⟩),
    (1, ⟨.busA, 8, 32, 8, 0, 0, 2, .fixed 255, .zones, 0, 20, none⟩)]
  zones := [(0, ⟨.rows 0 0 0 2 1 1 5, 0, 0, 32, 16, 0, none, .primary⟩),
    (1, ⟨.rows 0 0 0 1 0 2 5, 0, 0, 32, 7, 0, none, .primary⟩),
    (2, ⟨.message .normal 20 5 (some 0), 0, 8, 16, 8, 0, none, .primary⟩),
    (3, ⟨.clock false .left, 16, 8, 16, 8, 0, none, .alternate⟩),
    (4, ⟨.tile 0 2 5, 0, 0, 32, 16, 0, none, .primary⟩)]
  pool := 4

/-- A coder whose standby bank waits to be swapped in. -/
def waiting : State := { State.reset with tables := { State.reset.tables with bankB := bank, swapPending := true } }

/-- The same once the swap is applied. -/
def shown : State := after .swapApplied waiting

/-- An ENTRY body: board, service id, scheduled second; nothing optional. -/
def body (board sid sched : Nat) : EntryBody := ⟨board, sid, 0, 0, 0, 0, sched, 0, 0, 0⟩

/-- A MESSAGE body of one glyph code. -/
def note (slot priority duration : Nat) : MessageBody := ⟨slot, priority, 1, duration, 0, 1, [0, 1]⟩

/-! ## Well-formedness: an ill-formed command for each check -/

theorem test_illFormed_refused :
    ([.entry { body 256 1 0 with sid := 1 }, .entry (body 0 65536 0), .entry { body 0 1 0 with dest := 65536 },
      .entry { body 0 1 0 with via := 65536 }, .entry { body 0 1 0 with platform := 256 }, .entry (body 0 1 16777216),
      .entry { body 0 1 0 with expected := 16777216 }, .entry { body 0 1 0 with status := 256 },
      .entry { body 0 1 0 with cars := 256 }, .withdraw 256 1, .withdraw 0 65536, .clearBoard 256, .time 16777216,
      .message (note 256 0 0), .message (note 0 256 0), .message (note 0 0 65536),
      .message { note 0 0 0 with font := 256 }, .message { note 0 0 0 with count := 256 },
      .message { note 0 0 0 with tail := List.replicate 243 0 }, .messageEnd 256, .ackAlert 256, .mode 256,
      .tableLoad 256 0 [], .tableLoad 0 65536 [], .tableLoad 0 0 (List.replicate 248 0)] : List Instr).all
      (fun c => !c.wf) = true := by decide +kernel

theorem test_illFormed_settings_refused :
    ([.setDepartureHold (256 ^ 4), .setCancelHold (256 ^ 4), .setStalePeriod (256 ^ 4), .setCountdownLimit (256 ^ 4),
      .setDelayThreshold (256 ^ 4), .setLanguageDwell (256 ^ 4), .setSilenceLimit (256 ^ 4), .setRefreshCycle (256 ^ 4),
      .setBusRate .busA (256 ^ 4), .setBusEnable .busB (256 ^ 4), .setHoldLimit (256 ^ 4),
      .setSensorFallbackLevel (256 ^ 4), .setContactEnable 0 (256 ^ 4), .setContactMode 1 (256 ^ 4),
      .setContactPolarity 2 (256 ^ 4), .setContactFilter 3 (256 ^ 4), .setContactPanelMask 0 (256 ^ 4),
      .setContactAlertString 1 (256 ^ 4), .setUnknownSetting 256 0, .setUnknownSetting 14 (256 ^ 4),
      .setUnknownSetting 0 0, .setUnknownSetting 13 0, .setUnknownSetting 16 0, .setUnknownSetting 39 0] :
      List Instr).all (fun c => !c.wf) = true := by decide

theorem test_illFormed_queries_and_cells_refused :
    ([.queryDevice 256, .queryBoard 256, .queryPanel 256, .queryBank 256, .queryInputs 256, .querySettings 256,
      .queryUnknownKind 5 0, .queryUnknownKind 256 0, .queryUnknownKind 6 256, .trunkCell [0x41, 0, 0],
      .trunkCell [], .trunkCell (0x41 :: 0 :: 251 :: List.replicate 252 0), .returnCell [0x41, 0, 1, 0],
      .returnCell [0x41, 0, 0, 0, 0], .sensorRestored 0 255] : List Instr).all (fun c => !c.wf) = true := by
  decide +kernel

/-- The greatest values that fit are well formed. -/
theorem test_wellFormed_accepted :
    ([.entry ⟨255, 65535, 255, 65535, 65535, 255, 16777215, 16777215, 255, 255⟩,
      .message ⟨255, 255, 0xFFFF, 65535, 255, 255, List.replicate 242 0⟩, .tableLoad 255 65535 (List.replicate 247 0),
      .setHoldLimit (256 ^ 4 - 1), .setUnknownSetting 14 0, .setUnknownSetting 15 0, .setUnknownSetting 40 0,
      .queryUnknownKind 6 255, .trunkCell [0x41, 0, 0, 0xBF],
      .trunkCell (0x41 :: 0 :: 250 :: List.replicate 251 0), .sensorRestored 0 254] : List Instr).all
      Instr.wf = true := by decide +kernel

/-! ## The manual's worked figures -/

/-- R185: a broadcast TIME of 30,100 is 18h, 00h, 03h, 00h, 75h, 94h and its check DCh. -/
theorem test_time_cell : encodeCell? 0 (.time 30100) = some [0x18, 0, 3, 0, 0x75, 0x94, 0xDC] := by decide

/-- The same cell, heard, sets the clock. -/
theorem test_time_cell_heard :
    (after (.trunkCell [0x18, 0, 3, 0, 0x75, 0x94, 0xDC]) State.reset).clock = ⟨30100, .synced, 0⟩ := by decide

/-- R189: a BLANK to address 7 is 07h, 03h, 00h and F6h. -/
theorem test_blank_frame :
    viewChars 7 .blank = [⟨0x07, true⟩, ⟨0x03, false⟩, ⟨0x00, false⟩, ⟨0xF6, false⟩] := by decide

/-- R159: with points (32, 40) and (96, 120), light 64 gives 80 and light 33 gives 41. -/
theorem test_curve : curveLevel [(32, 40), (96, 120)] 64 = 80 ∧ curveLevel [(32, 40), (96, 120)] 33 = 41 := by decide

/-- R41: a key of 31,679 shows 08:47, and 100,000 shows 03:46. -/
theorem test_clock_text :
    clockCodes 0 31679 = [0, 8, 10, 4, 7] ∧ clockCodes 0 100000 = [0, 3, 10, 4, 6] := by decide

/-- R79: a HELD clock at 107,999 shows 05:59, or 05:59:59 with seconds. -/
theorem test_held_clock_text :
    clockText ⟨107999, .held, 0⟩ false = .digits [0, 5, 5, 9] ∧
      clockTextCodes bank false 0 (clockText ⟨107999, .held, 0⟩ true) = [0, 5, 10, 5, 9, 10, 5, 9] := by decide

/-- R39: 30 s ahead is DUE, 31 s is 1 minute, 89 s is 1 minute and 90 s is 2. -/
theorem test_countdown :
    [30, 31, 89, 90].map (fun d => countdown 20 (1000 + d) 1000) = [.due, .minutes 1, .minutes 1, .minutes 2] := by
  decide

/-- R34: at 30,059 a pulse snaps to 30,060; at 30,020 it drops to 30,000. -/
theorem test_pulse :
    (after .minutePulse (after (.time 30059) State.reset)).clock.value = 30060 ∧
      (after .minutePulse (after (.time 30020) State.reset)).clock.value = 30000 := by decide

/-- R34: at 30,021 the pulse is ignored and raises PULSE_DISCORD. -/
theorem test_pulse_discord :
    (after .minutePulse (after (.time 30021) State.reset)).clock.value = 30021 ∧
      (after .minutePulse (after (.time 30021) State.reset)).mgmt.flags.pulseDiscord = true := by decide

/-- R27: the clock stands a second at 107,999 and is HELD at the next. -/
theorem test_end_of_day :
    (after .timebaseSecond (after (.time 107998) State.reset)).clock = ⟨107999, .synced, 1⟩ ∧
      (afterAll [.timebaseSecond, .timebaseSecond] (after (.time 107998) State.reset)).clock = ⟨107999, .held, 2⟩ := by
  decide

/-- R162: level 255 sends a component as it is, level 0 sends 0, and (200 · 128 + 127) div 255 is 100. -/
theorem test_scaling : scaleComponent 255 200 = 200 ∧ scaleComponent 0 200 = 0 ∧ scaleComponent 128 200 = 100 := by
  decide

/-- R135, R189: a span of 20 pixels of colour 3 is a run of 16 and a run of 4, bytes 3Fh and 33h. -/
theorem test_runs : (lineRuns (List.replicate 20 3)).map runByte = [0x3F, 0x33] := by decide

/-- R136: a tie of RUN and PACKED goes to RUN. -/
theorem test_tie_goes_to_run : (codeLine [1, 1, 2, 2]).1 = 0 ∧ (codeLine [1, 2, 3, 3]).1 = 1 := by decide

/-- R156: the seeding sample gives 8 times itself; the next takes an eighth away. -/
theorem test_smoothing :
    ((after (.lightSample 100 0 0 0) State.reset).light.sensors.get 0).accumulator = 800 ∧
      ((afterAll [.lightSample 100 0 0 0, .lightSample 60 0 0 0] State.reset).light.sensors.get 0).accumulator = 760 := by
  decide

/-- R172, R175: with the marker at RELAY, a report joins an idle lane and is served at once. -/
theorem test_report_is_sent :
    (after (.queryBank 0) State.reset).trunk.sending = some .own ∧
      (after .returnOutCellSent (after (.queryBank 0) State.reset)).trunk.sending = none := by decide

/-- R166: a length above 250 abandons the cell. -/
theorem test_long_cell_abandoned :
    (afterAll [.characterArrival .trunkIn ⟨0x20, true, true⟩, .characterArrival .trunkIn ⟨0, false, true⟩,
      .cellAbandoned .trunkIn ⟨251, false, true⟩] State.reset).trunk.abandoned = 1 := by decide

/-- R168: a cell to another node is forwarded unchanged and not taken. -/
theorem test_forward :
    (after (.trunkCell [0x43, 9, 0, 0xB4]) State.reset).trunk.forward = [[0x43, 9, 0, 0xB4]] ∧
      (after (.trunkCell [0x43, 9, 0, 0xB4]) State.reset).tables.swapPending = false := by decide

/-- R165: at the least rate a forwarded cell goes out with the marker on its kind alone; TRUNK_OUT then rests. -/
theorem test_forward_on_the_line :
    (after (.trunkCell [0x43, 9, 0, 0xB4]) State.reset).trunk.trunkOut =
        some ⟨[⟨0x43, true⟩, ⟨9, false⟩, ⟨0, false⟩, ⟨0xB4, false⟩], 115200⟩ ∧
      (afterAll [.trunkCell [0x43, 9, 0, 0xB4], .trunkOutCellSent] State.reset).trunk.trunkOut = none := by decide

/-- R165: the four trunk rates, from both straps low to both high. -/
theorem test_trunk_rates : (List.finRange 4).map trunkRate = [115200, 230400, 460800, 921600] := by decide

/-- R133: in the box from 140 of width 52, texts of 22, 29 and 60 pixels set RIGHT start at 170, 163 and 140; a held text
wider than its zone starts at the zone's x. -/
theorem test_aligned_starts :
    [22, 29, 60].map (alignedStart .right 140 52) = [170, 163, 140] ∧ alignedStart .centre 8 16 29 = 8 := by decide

/-- R8, R4: entries stand by key, whatever the order of posting. -/
theorem test_board_order :
    ((afterAll [.entry (body 0 5 30000), .entry (body 0 9 29000), .entry (body 0 7 30000)] State.reset).boards.get
      0).map Entry.sid = [9, 5, 7] := by decide

/-- R126, R143: after a swap the new panel is STARTING with UNBLANK and its palette pending and every line dirty. -/
theorem test_swap_starts_panels :
    (shown.disp.panels.get 0) = ⟨.starting, 0, none, none, false, some .unblank, true⟩ ∧
      (shown.disp.lines.dirty.get 0) = List.range 16 := by decide

/-- R97: a MESSAGE zone with no slot to show and an idle string is IDLE, and a MESSAGE takes it to its slot. -/
theorem test_message_zone :
    (shown.disp.messageRuntime? (.zone 2)).map (·.showing) = some .idle ∧
      ((after (.message (note 3 0 0)) shown).disp.messageRuntime? (.zone 2)).map (·.showing) = some (.slot 3) := by
  decide

/-- R120: an EMERGENCY message takes a FULL panel to the EMERGENCY view. -/
theorem test_emergency_view :
    (after (.message (note 3 2 0)) shown).disp.seq.views.get 0 = some .emergency := by decide

/-- R145, R147: after a swap a bus sends the view command of the first panel after its marker. -/
theorem test_first_frame :
    (after (.frameChoice .busA) shown).buses.a.inFlight.map Frame.chars =
      some [⟨0x07, true⟩, ⟨0x04, false⟩, ⟨0x00, false⟩, ⟨0xF5, false⟩] := by decide

/-- R121, R88: the NIGHT mode blanks a panel with BLANK pending, and marks every line of it. -/
theorem test_entering_blank :
    (after (.mode 1) { shown with disp := { shown.disp with lines := ⟨Vec.fill 16 [], Vec.fill 16 0⟩ } }).disp.lines.dirty.get 0 =
        List.range 16 ∧
      ((after (.mode 1) shown).disp.panels.get 0).viewCommand = some .blank := by decide

/-- The three panels of 8.10 on bus A, ONLINE, panel 11 FULL, with panel 3's lines 18 to 24 and panel 4's line 2 dirty
and the marker at 3. -/
def busyBus : State :=
  let row (address busClass : Nat) : PanelRow :=
    ⟨.busA, address, 32, 32, 0, 0, busClass, .fixed 255, .full, 0, 20, none⟩
  let start := after .swapApplied { State.reset with tables := { State.reset.tables with
    bankB := { Bank.empty with panels := [(3, row 7 1), (4, row 8 0), (11, row 12 2)] }, swapPending := true } }
  { start with
    disp := { start.disp with
      panels := Vec.fill 16 ⟨.online, 0, none, none, false, none, false⟩
      lines := ⟨((Vec.fill 16 []).set 3 [18, 19, 20, 21, 22, 23, 24]).set 4 [2], Vec.fill 16 0⟩ }
    buses := ⟨{ start.buses.a with marker := 3 }, start.buses.b⟩ }

/-- The frames of bus A: in flight, coded ahead, and the marker. -/
def frames (s : State) : Option (Fin 16 × FrameWork) × Option (Fin 16 × FrameWork) × Fin 16 :=
  (s.buses.a.inFlight.map fun f => (f.panel, f.work), s.buses.a.codedAhead.map fun f => (f.panel, f.work), s.buses.a.marker)

/-- Two choices, an alert for panel 11, and ACKs of panels 4 and 3. -/
def busySequence : List (List Instr) :=
  [[.frameChoice .busA, .frameChoice .busA], [.message { note 3 2 0 with mask := 0x0800 }],
    [.frameSent .busA, .panelAnswer .busA 0xA5 false], [.frameSent .busA, .panelAnswer .busA 0xA5 false]]

/-- 8.10: what stands after the first choices, the alert, panel 4's ACK and panel 3's ACK: at each ACK the coded-ahead
frame starts and the bus chooses again. -/
theorem test_busy_bus :
    (List.range 4).map (fun n => frames (afterAll (busySequence.take (n + 1)).flatten busyBus)) =
      [(some (4, .line 2), some (3, .line 18), 3), (some (4, .line 2), some (3, .line 18), 3),
        (some (3, .line 18), some (11, .line 0), 11), (some (11, .line 0), none, 11)] := by decide +kernel

/-! ## Witnesses: what each statement supposes can be met

Each theorem shows a state and operands that meet the hypotheses of the statement it is named after, or of the clauses
of it that suppose anything. -/

/-- An entry with no optional field present and its numbers in range is in order. -/
theorem entryOk_plain {e : Entry}
    (h : 1 ≤ e.sid ∧ e.sid ≤ 65535 ∧ e.dest ≤ 1023 ∧ e.via = none ∧ e.platform = none ∧ e.sched ≤ lastSecond ∧
      e.expected = none ∧ e.cars = none ∧ e.age ≤ 65535) : e.Ok := by
  obtain ⟨h1, h2, h3, h4, h5, h6, h7, h8, h9⟩ := h
  refine ⟨h1, h2, h3, ?_, ?_, h6, ?_, ?_, h9⟩ <;> intro v hv <;> simp_all

/-- A board of such entries in order. -/
theorem boardOk_plain {l : List Entry}
    (h : l.length ≤ 16 ∧ (l.map Entry.sid).Nodup ∧ (l.Pairwise fun a b => a.before b = true) ∧
      ∀ e ∈ l, 1 ≤ e.sid ∧ e.sid ≤ 65535 ∧ e.dest ≤ 1023 ∧ e.via = none ∧ e.platform = none ∧ e.sched ≤ lastSecond ∧
        e.expected = none ∧ e.cars = none ∧ e.age ≤ 65535) : BoardOk l :=
  ⟨h.1, h.2.1, h.2.2.1, fun e he => entryOk_plain (h.2.2.2 e he)⟩

/-- Board 0 with two entries, the clock running. -/
def posted : State := afterAll [.time 29000, .entry (body 0 5 30000), .entry (body 0 7 31000)] shown

/-- Board 0 with 16 entries, ids 1 to 16. -/
def full : State := afterAll ((List.range 16).map fun i => .entry (body 0 (i + 1) (30000 + i))) State.reset

theorem witness_StepTakesTheFrontCommand :
    ({ State.reset with pending := [.minutePulse, .bankSwap] } : State).pending = .minutePulse :: [.bankSwap] ∧
      State.reset.pending = [] := by decide

theorem witness_EveryCommandCompletesInItsFrame : (Instr.time 107999).wf = true ∧ (Instr.trunkOutCellSent).wf = true := by
  decide

theorem witness_RestartKeepsTablesAndSettings : (shown.scene.panel 1).isSome = true := by decide

theorem witness_ActiveBankChangesOnlyAtASwap : exec .swapApplied waiting = .next shown := rfl

theorem witness_RaisedFlagsStandUntilReported :
    (Instr.minutePulse).wf = true ∧ exec .minutePulse posted = .next (after .minutePulse posted) := ⟨rfl, rfl⟩

theorem witness_board_posted : BoardOk (posted.boards.get 0) := boardOk_plain (by decide)

theorem witness_board_full : BoardOk (full.boards.get 0) := boardOk_plain (by decide)

theorem bank_empty_ok : Bank.empty.Ok := by
  simp [Bank.Ok, Bank.empty, TableOk, Table.wf, Bank.codesHeld]

/-- A state with one command waiting and an entry on a board, no panel present. -/
def simple : State := { afterAll [.entry (body 3 5 30000)] State.reset with pending := [.time 29000] }

theorem simple_safe : Safe simple := by
  have noPanel : ∀ p, simple.scene.panel p = none := fun p => rfl
  refine ⟨by unfold StationClock.Ok; decide, ?_, ?_, by decide, ⟨bank_empty_ok, bank_empty_ok, by decide, by decide⟩, ?_,
    ?_, ?_, by decide, ?_, ?_, ?_, ?_, ?_, ?_⟩
  · intro b
    refine boardOk_plain ?_
    revert b
    decide
  · refine ⟨by decide, by decide, .inr ⟨by decide, by decide⟩, ⟨by decide, by decide⟩, by decide, ⟨by decide, by decide⟩,
      .inr ⟨by decide, by decide⟩, .inr ⟨by decide, by decide⟩, ?_, ⟨by decide, by decide⟩, by decide, ?_⟩
    · intro b
      cases b <;> exact .inr (.inl rfl)
    · unfold ContactSettings.Ok InRange
      decide
  · refine ⟨by decide, fun i r left h => ?_, fun n => ?_⟩
    · have free : ∀ j, simple.slots.get j = .free := by decide
      rw [free i] at h
      cases h
    have clear : (simple.contacts.get n).latch = none := by revert n; decide
    rw [clear]
    revert n
    decide
  · unfold ContactsOk
    decide
  · intro p
    refine ⟨by rw [noPanel]; fin_cases p <;> rfl, ?_⟩
    fin_cases p <;> decide
  · intro p
    rw [noPanel]
    fin_cases p <;> decide
  · intro p
    refine ⟨?_, ?_, ?_, ?_, ?_⟩
    · rw [noPanel]
      fin_cases p <;> decide
    all_goals fin_cases p
    all_goals decide
  · intro b
    cases b
    all_goals
      refine ⟨by decide, by decide, by decide, by decide, by decide, by decide, ?_, ?_, ?_⟩
      all_goals first | (intro f g hf; cases hf) | (intro f hf; cases hf)
  · intro b f
    cases b <;> exact ⟨fun h => (by cases h), fun h => (by cases h)⟩
  · exact ⟨by unfold Sensor.Ok; decide, by decide⟩
  · refine ⟨trivial, trivial, ⟨by decide, ?_⟩, ⟨by decide, ?_⟩, ⟨by decide, ?_⟩, fun _ => ⟨rfl, rfl⟩, ?_, by decide, by decide,
      by decide⟩
    all_goals intro c hc
    all_goals cases hc

/-- The hypotheses of every invariant statement: a safe state and its step. -/
theorem witness_EveryStepKeeps : Safe simple ∧ step simple = .next (after (.time 29000) (simple.withPending [])) :=
  ⟨simple_safe, rfl⟩

/-! ### Boards and the clock -/

theorem witness_EntryWithABadFieldIsRefused :
    (body 8 1 0).wf = true ∧ EntryBad (body 8 1 0) ∧ (body 7 1 107999).wf = true ∧ ¬EntryBad (body 7 1 107999) := by
  unfold EntryBad
  decide

theorem witness_EntryReplacesTheEntryOfItsId :
    (body 0 5 32000).wf = true ∧ ¬EntryBad (body 0 5 32000) ∧ BoardOk (posted.boards.get 0) ∧
      ∃ x ∈ posted.boards.get 0, x.sid = 5 :=
  ⟨by decide, by unfold EntryBad; decide, witness_board_posted, by decide⟩

/-- With room; and on a full board both a newcomer that orders before the last entry and one that orders after it. -/
theorem witness_NewEntryIsInsertedOrTheLaterIsLost :
    ((body 0 6 30500).wf = true ∧ ¬EntryBad (body 0 6 30500) ∧ BoardOk (posted.boards.get 0) ∧
      (∀ x ∈ posted.boards.get 0, x.sid ≠ 6) ∧ (posted.boards.get 0).length < 16) ∧
    (¬EntryBad (body 0 20 100) ∧ ¬EntryBad (body 0 20 107999)) ∧ BoardOk (full.boards.get 0) ∧
      (∀ x ∈ full.boards.get 0, x.sid ≠ 20) ∧ (full.boards.get 0).length = 16 :=
  ⟨⟨by decide, by unfold EntryBad; decide, witness_board_posted, by decide, by decide⟩,
    by unfold EntryBad; decide, witness_board_full, by decide, by decide⟩

theorem witness_WithdrawAndClearBoardRemoveEntries :
    (∀ x ∈ posted.boards.get 0, x.sid ≠ 6) ∧ positionOf 7 (posted.boards.get 0) = some 1 ∧ (7 < 8 ∨ 1 = 0) := by decide

theorem witness_TimeFieldFollowsTheFirstCaseAndIsSpelled :
    (derive Settings.default ⟨29000, .synced, 0⟩ ((posted.boards.get 0).getD 0 ⟨1, 0, none, none, 0, none, .held, none,
      false, 0, .due, .time⟩)).1 = .minutes 17 ∧ 1 ≤ 99 ∧ 99 ≤ 99 := by decide

/-- A TIME of the last second, one too late by a second, and one that starts a new day; for a pulse one state for each
clause, 20, 21, 39 and 40 seconds past the minute among them. -/
theorem witness_TimeAndMinutePulseSetTheClock :
    107999 ≤ 107999 ∧ 107999 < 108000 ∧ posted.clock.state ≠ .unset ∧ 0 + 10800 < posted.clock.value ∧
      State.reset.clock.state = .unset ∧ ({ posted with clock := ⟨107999, .held, 5⟩ } : State).clock.state = .held ∧
      (posted.clock.state = .synced ∧ posted.clock.value % 60 = 20) ∧
      (after (.time 29001) posted).clock.value % 60 = 21 ∧ (after (.time 29019) posted).clock.value % 60 = 39 ∧
      (after (.time 29020) posted).clock.value % 60 = 40 ∧ posted.clock.Ok := by
  unfold StationClock.Ok
  decide

/-- A SYNCED clock a second short of drifting. -/
def drifting : State := { posted with clock := ⟨29000, .synced, 899⟩ }

theorem witness_SecondAdvancesTheClock :
    drifting.clock.state = .synced ∧ drifting.clock.age = 899 ∧ drifting.clock.value < 107999 ∧
      State.reset.clock.state = .unset := by decide

/-- The entry of `posted` that stands first, its age at the stale period of 300 s. -/
def oldEntry : Entry := ⟨5, 0, none, none, 30000, none, .normal, none, false, 300, .minutes 17, .time⟩

/-- A board with that entry. -/
def aged : State := { posted with boards := posted.boards.set 0 [oldEntry] }

theorem witness_SecondsAgeExpireAndStaleEntries :
    BoardsOk aged ∧ oldEntry ∈ aged.boards.get 0 ∧ aged.settings.stalePeriod ≠ 0 ∧
      oldEntry.age = aged.settings.stalePeriod ∧ oldEntry.age < 65535 ∧
      (after .timebaseSecond aged).clock.value ≠ aged.clock.value :=
  ⟨fun b => boardOk_plain (by revert b; decide), by decide, by decide, by decide, by decide, by decide⟩

/-- A second that takes the live rows of panel 0 otherwise: the first entry's countdown goes from 17 to 16 minutes, with no
swap pending and the panel in NORMAL; and a paged zone whose record holds that entry. -/
def counted : State :=
  let s : State := { posted with clock := ⟨29010, .synced, 0⟩ }
  { s with disp := s.disp.setRuntime 1 (some (.page 0 [some 5] 5)) }

theorem witness_SecondsAgeExpireAndStaleEntries_rows :
    counted.tables.swapPending = false ∧ counted.tables.activeBank.zones.wf ∧ BoardsOk counted ∧
      counted.disp.seq.views.get 0 = some .normal ∧
      ((after .timebaseSecond counted).boards.get 0)[0]?.map drawnOf ≠ (counted.boards.get 0)[0]?.map drawnOf ∧
      counted.disp.seq.runtimes.find 1 = some (.page 0 [some 5] 5) ∧
      (∃ row zone, (0, 0, row, zone) ∈ counted.scene.zones ∧ zone.kind = .rows 0 0 0 2 1 1 5) ∧
      ∃ row zone, (1, 0, row, zone) ∈ counted.scene.zones ∧ zone.kind = .rows 0 0 0 1 0 2 5 :=
  ⟨by decide, by unfold Table.wf; decide, fun b => boardOk_plain (by revert b; decide), by decide, by decide +kernel,
    by decide, ⟨_, _, List.mem_cons_self, rfl⟩, ⟨_, _, List.mem_cons_of_mem _ List.mem_cons_self, rfl⟩⟩

/-- A FAULT panel 0 in its probe period, an ONLINE panel 1, a message with 2 seconds to run, the silence timer a second
short of the default limit of 60 s. -/
def counting : State :=
  let s := after (.message (note 3 0 2)) posted
  { s with
    disp := (s.disp.onPanel 0 fun r => { r with state := .fault, failures := 8, probeTimer := some 10 }).onPanel 1
      fun r => { r with state := .online }
    trunk := { s.trunk with silence := 59 } }

theorem witness_SecondStepsTheCounts :
    counting.tables.swapPending = false ∧ counting.tables.activeBank.zones.wf ∧ BoardsOk counting ∧
      counting.slots.get 3 = .active ⟨.normal, 1, 0, .codes [1]⟩ (some 2) ∧
      (counting.disp.panels.get 0).state = .fault ∧ (counting.disp.panels.get 1).state = .online ∧
      (counting.scene.panel 1).isSome = true ∧ counting.settings.refreshCycle ≠ 0 ∧
      counting.disp.seq.runtimes.find 1 = some (.page 0 [none] 5) ∧ counting.disp.seq.runtimes.find 4 = some (.tile 0 5) ∧
      (counting.disp.messageRuntime? (.zone 2)).map MessageRuntime.dwell = some (some 5) ∧ ViewsOk counting ∧
      counting.settings.silenceLimit ≠ 0 ∧ counting.trunk.silent = false ∧
      counting.settings.silenceLimit ≤ min 65535 (counting.trunk.silence + 1) ∧
      counting.disp.seq.views.get 0 = some .normal ∧
      (after .timebaseSecond counting).disp.seq.views.get 0 = some .fallback ∧
      (after .timebaseSecond counting).disp.seq.views.get 1 = counting.disp.seq.views.get 1 :=
  ⟨by decide, by unfold Table.wf; decide, fun b => boardOk_plain (by revert b; decide), by decide, by decide, by decide,
    by decide, by decide, by decide +kernel, by decide +kernel, by decide +kernel, by unfold ViewsOk; decide +kernel,
    by decide, by decide, by decide, by decide, by decide +kernel, by decide +kernel⟩

/-! ### Zone sequencing -/

/-- A panel in the NORMAL view over a zone table in canonical form; line 8 of panel 0 is in row 1 of its live zone, line 7
in its gap. -/
theorem witness_NoticeDirtiesExactlyTheRowsItReaches :
    shown.scene.bank.zones.wf ∧ shown.disp.seq.views.get 0 = some .normal ∧
      (takeNotice ⟨0, some (1, 1), []⟩ shown.scene { shown.disp with lines := ⟨Vec.fill 16 [], Vec.fill 16 0⟩ }).lines.dirty.get 0 =
        [8, 9, 10, 11, 12, 13, 14] := by
  unfold Table.wf
  decide +kernel

/-- Two messages for panel 0, in slots 2 and 5. -/
def messages : State := afterAll [.message (note 2 0 0), .message (note 5 0 1)] shown

theorem witness_RotationServesTheTopGroupInTurn :
    topGroup messages.slots 0 .normal = [2, 5] ∧ successor 2 [2, 5] = some 5 ∧ successor 5 [2, 5] = some 2 ∧
      topGroup State.reset.slots 0 .normal = [] := by decide

theorem zone_of_kind {o : Option (Fin 16 × PanelRow × Zone)} {k : ZoneKind} (h : o.map (fun e => e.2.2.kind) = some k) :
    ∃ p row zone, o = some (p, row, zone) ∧ zone.kind = k := by
  obtain ⟨⟨p, row, zone⟩, ho, hk⟩ := Option.map_eq_some_iff.mp h
  exact ⟨p, row, zone, ho, hk⟩

/-- Dwell counters at their last second. -/
def due : State := afterAll (List.replicate 4 .timebaseSecond) posted

theorem witness_PagesTurnAndTilesStep :
    (∃ p row zone, due.scene.zone 1 = some (p, row, zone) ∧ zone.kind = .rows 0 0 0 1 0 2 5) ∧
      due.disp.seq.runtimes.find 1 = some (.page 0 [none] 1) ∧
      (∃ p row zone, due.scene.zone 4 = some (p, row, zone) ∧ zone.kind = .tile 0 2 5) ∧
      due.disp.seq.runtimes.find 4 = some (.tile 0 1) :=
  ⟨zone_of_kind (by decide +kernel), by decide +kernel, zone_of_kind (by decide +kernel), by decide +kernel⟩

/-- A text of five glyphs, wider than its zone of 16 pixels: 29 pixels, so a pass of 45 steps. -/
def scrolling : State :=
  after (.message { note 2 0 0 with count := 5, tail := [0, 1, 0, 1, 0, 1, 0, 1, 0, 1] }) shown

/-- The same at the last step of the pass. -/
def passEnds : State :=
  { scrolling with disp := scrolling.disp.setMessageRuntime (.zone 2) ⟨.slot 2, 2, 44, some 20, none⟩ }

/-- A panel in the EMERGENCY view whose synthetic zone shows slot 3. -/
def emergency : State := after (.message (note 3 2 0)) shown

/-- The synthetic zone in a pass. -/
def crying : State := { emergency with disp := emergency.disp.setMessageRuntime (.synthetic 0) ⟨.slot 3, 3, 0, some 20, none⟩ }

theorem witness_MessageTextsScrollAndDwell :
    (∃ pl zone, messagePlace? scrolling.scene scrolling.disp.seq.phase (.zone 2) = some pl ∧ pl.zone = some zone ∧
      pl.shownWidth scrolling.scene (.slot 2) + pl.width = 45) ∧
      scrolling.disp.messageRuntime? (.zone 2) = some ⟨.slot 2, 2, 0, some 20, none⟩ ∧
      passEnds.disp.messageRuntime? (.zone 2) = some ⟨.slot 2, 2, 44, some 20, none⟩ ∧
      successor 2 (topGroup passEnds.slots 0 .normal) = some 2 ∧
      (∃ pl, messagePlace? crying.scene crying.disp.seq.phase (.synthetic 0) = some pl ∧ MarksTaken crying pl) ∧
      crying.disp.messageRuntime? (.synthetic 0) = some ⟨.slot 3, 3, 0, some 20, none⟩ :=
  ⟨⟨_, _, rfl, rfl, by decide⟩, by decide, by decide, by decide, ⟨_, rfl, .inl rfl⟩, by decide⟩

/-- Held texts at their last second: a slot with a successor, an idle string, and a slot whose group has emptied. -/
def held : State := { messages with
  disp := messages.disp.setMessageRuntime (.zone 2) ⟨.slot 2, 2, 0, none, some 1⟩ }

/-- The synthetic zone's text at its last second. -/
def heldCry : State := { emergency with disp := emergency.disp.setMessageRuntime (.synthetic 0) ⟨.slot 3, 3, 0, none, some 1⟩ }

theorem witness_MessageTextsScrollAndDwell_dwell :
    (∃ pl zone, messagePlace? held.scene held.disp.seq.phase (.zone 2) = some pl ∧ pl.zone = some zone) ∧
      held.disp.messageRuntime? (.zone 2) = some ⟨.slot 2, 2, 0, none, some 1⟩ ∧
      successor 2 (topGroup held.slots 0 .normal) = some 5 ∧
      due.disp.messageRuntime? (.zone 2) = some ⟨.idle, 7, 0, none, some 1⟩ ∧
      successor 2 (topGroup ({ held with slots := State.reset.slots } : State).slots 0 .normal) = none ∧
      (∃ pl, messagePlace? heldCry.scene heldCry.disp.seq.phase (.synthetic 0) = some pl ∧ pl.zone = none) ∧
      heldCry.disp.messageRuntime? (.synthetic 0) = some ⟨.slot 3, 3, 0, none, some 1⟩ ∧
      successor 3 (topGroup heldCry.slots 0 .emergency) = some 3 :=
  ⟨⟨_, _, rfl, rfl⟩, by decide, by decide, by decide +kernel, by decide, ⟨_, rfl, rfl⟩, by decide, by decide⟩

/-- A pass of a slot's text that ends where another slot follows it, where its group has emptied, and of an idle string. -/
theorem witness_MessageTextsScrollAndDwell_passEnds :
    (let s : State := { messages with disp := messages.disp.setMessageRuntime (.zone 2) ⟨.slot 2, 2, 20, some 20, none⟩ }
     successor 2 (topGroup s.slots 0 .normal) = some 5 ∧
      ∃ pl, messagePlace? s.scene s.disp.seq.phase (.zone 2) = some pl ∧
        pl.shownWidth s.scene (.slot 2) + pl.width ≤ 20 + 1) ∧
    (let s : State := { shown with disp := shown.disp.setMessageRuntime (.zone 2) ⟨.slot 2, 2, 20, some 20, none⟩ }
     successor 2 (topGroup s.slots 0 .normal) = none ∧
      ∃ pl, messagePlace? s.scene s.disp.seq.phase (.zone 2) = some pl ∧ pl.zone ≠ none ∧
        pl.shownWidth s.scene (.slot 2) + pl.width ≤ 20 + 1) ∧
    (let s : State := { shown with disp := shown.disp.setMessageRuntime (.zone 2) ⟨.idle, 7, 30, some 20, none⟩ }
     s.disp.messageRuntime? (.zone 2) = some ⟨.idle, 7, 30, some 20, none⟩ ∧
      ∃ pl, messagePlace? s.scene s.disp.seq.phase (.zone 2) = some pl ∧ pl.shownWidth s.scene .idle + pl.width ≤ 30 + 1) :=
  ⟨⟨by decide, _, rfl, by decide⟩, ⟨by decide, _, rfl, by decide, by decide⟩, ⟨by decide, _, rfl, by decide⟩⟩

/-- The language count a second short of the default dwell of 6 s, with an ALTERNATE zone on a NORMAL panel. -/
def flipping : State := { posted with disp := { posted.disp with seq := { posted.disp.seq with langCount := 5 } } }

/-- A clock zone whose recorded text a second that completes a minute changes; panels in the views a flip marks. -/
theorem witness_ClockAndLanguageChangesMarkTheirZones :
    (let s : State := { posted with clock := ⟨29039, .synced, 0⟩ }
     s.tables.activeBank.zones.wf ∧ s.tables.swapPending = false ∧
      (after .timebaseSecond s).clock.value ≠ s.clock.value ∧
      (s.scene.zones.any fun e => e.1 = 3 ∧ e.2.2.2.kind = .clock false .left) = true ∧
      s.disp.seq.runtimes.find 3 = some (.clock (.digits [0, 8, 0, 3])) ∧
      clockTextOf (after .timebaseSecond s).clock false = .digits [0, 8, 0, 4] ∧
      s.disp.seq.views.get 0 = some .normal) ∧
    flipping.settings.languageDwell ≤ flipping.disp.seq.langCount + 1 ∧
      (∃ e ∈ flipping.scene.zones, e.2.1 = 0 ∧ e.2.2.2.language = .alternate) ∧
      flipping.disp.seq.views.get 0 = some .normal ∧
      (after .silent { flipping with trunk := { flipping.trunk with silence := 59 } }).disp.seq.views.get 0 =
        some .fallback := by
  unfold Table.wf
  decide +kernel

/-! ### Messages, contacts and views -/

/-- An alert raised by contact 0: enabled, LEVEL, active-low, its input LOW through the filter. -/
def alerting : State := afterAll [.setContactEnable 0 1, .contactChange 0 .low] shown

/-- The same once its filter has expired. -/
def alarmed : State := after (.filterExpiry 0) alerting

/-- The same once its input has gone HIGH through the filter. -/
def quiet : State := afterAll [.contactChange 0 .high, .filterExpiry 0] alarmed

/-- A body for each check in its order, one that passes, and the LOCKED slot of an alert. -/
theorem witness_MessagesFillAndFreeTheirSlots :
    (note 3 2 9).tail.length = 2 * (note 3 2 9).count ∧ (∀ c ∈ wordsOf (note 3 2 9).tail, c ≤ 511) ∧
      (alarmed.slots.get 3).isLocked = false ∧ (alarmed.slots.get 4).isLocked = true ∧
      (∃ c ∈ wordsOf [2, 0], 511 < c) ∧ 7 < (note 8 0 0).slot ∧ [0, 1, 2].length ≠ 2 * 1 := by decide

theorem witness_MessagesFillAndFreeTheirSlots_free :
    messages.slots.get 5 = .active ⟨.normal, 1, 0, .codes [1]⟩ (some 1) ∧
      messages.slots.get 2 = .active ⟨.normal, 1, 0, .codes [1]⟩ none ∧ messages.slots.get 0 = .free ∧
      alarmed.slots.get 4 = .locked ⟨.emergency, 0xFFFF, 0, .string 1006⟩ := by decide

/-- An alert of contact 0 ended in EDGE mode while its input is still active. -/
def edged : State := afterAll [.setContactMode 0 0, .ackAlert 0] alarmed

/-- A command of each kind that changes a slot, over a bank with a MESSAGE zone in its runtime; a text written into the
slot shown, and the synthetic zone of a panel that stays in EMERGENCY. -/
theorem witness_SlotChangesJudgeMessageZonesAgain :
    ChangesSlot shown 3 true (.message (note 3 0 0)) ∧ ChangesSlot messages 2 false (.messageEnd 2) ∧
      ChangesSlot messages 5 false (.messageDurationExpiry 5) ∧ ChangesSlot alerting 4 true (.filterExpiry 0) ∧
      ChangesSlot quiet 4 false (.ackAlert 0) ∧ ChangesSlot (after (.restart false) alarmed) 4 true (.settlingExpiry 0) ∧
      ChangesSlot (afterAll [.contactChange 0 .low, .filterExpiry 0] shown) 4 true (.setContactEnable 0 1) ∧
      ChangesSlot alarmed 4 false (.setContactEnable 0 0) ∧ ChangesSlot edged 4 true (.setContactMode 0 1) ∧
      ChangesSlot (after (.setContactEnable 0 1) shown) 4 true (.setContactPolarity 0 1) ∧
      messages.tables.activeBank.zones.wf ∧
      (∃ pl rt, messagePlace? messages.scene messages.disp.seq.phase (.zone 2) = some pl ∧
        messages.disp.messageRuntime? (.zone 2) = some rt ∧ pl.zone ≠ none ∧ rt.showing = .slot 2 ∧
        2 ∈ topGroup messages.slots 0 .normal ∧ MarksTaken messages pl) ∧
      (∃ pl rt, messagePlace? emergency.scene emergency.disp.seq.phase (.synthetic 0) = some pl ∧
        emergency.disp.messageRuntime? (.synthetic 0) = some rt ∧ pl.zone = none ∧ rt.showing = .slot 3 ∧
        emergency.disp.seq.views.get pl.panel = some .emergency ∧
        (after (.message (note 3 2 5)) emergency).disp.seq.views.get pl.panel = some .emergency ∧
        ChangesSlot emergency 3 true (.message (note 3 2 5))) :=
  ⟨by unfold ChangesSlot MessageTaken; decide, ⟨rfl, rfl, _, _, rfl⟩, ⟨rfl, rfl, _, _, rfl, by decide⟩,
    by unfold ChangesSlot ActiveAt; decide, ⟨rfl, 0, rfl, rfl, by decide, by unfold ActiveAt; decide⟩,
    by unfold ChangesSlot ActiveAt; decide, by unfold ChangesSlot ActiveAt; decide, by unfold ChangesSlot ActiveAt; decide,
    by unfold ChangesSlot ActiveAt; decide, by unfold ChangesSlot; decide, by unfold Table.wf; decide,
    ⟨_, _, rfl, rfl, by decide, rfl, by decide, .inr rfl⟩,
    ⟨_, _, rfl, rfl, rfl, rfl, rfl, by decide, by unfold ChangesSlot MessageTaken; decide⟩⟩

/-- A slot change that takes a panel into EMERGENCY, from NORMAL and from BLANK; one that takes it out, its paged zone then
starting again, and one that leaves every view as it is, in NORMAL and in EMERGENCY, the synthetic zones standing in
EMERGENCY alone. -/
theorem witness_SlotChangesJudgeMessageZonesAgain_views :
    (shown.disp.seq.views.get 0 = some .normal ∧ ChangesSlot shown 3 true (.message (note 3 2 0)) ∧
      emergency.disp.seq.views.get 0 = some .emergency) ∧
    (let s := after (.mode 1) shown
     s.disp.seq.views.get 0 = some .blank ∧ ChangesSlot s 3 true (.message (note 3 2 0)) ∧
      (after (.message (note 3 2 0)) s).disp.seq.views.get 0 = some .emergency) ∧
    (ChangesSlot emergency 3 false (.messageEnd 3) ∧ (after (.messageEnd 3) emergency).disp.seq.views.get 0 = some .normal ∧
      ∃ row zone, (1, 0, row, zone) ∈ emergency.scene.zones ∧ Paged zone) ∧
    ((after (.message (note 3 0 0)) shown).disp.seq.views = shown.disp.seq.views ∧
      shown.disp.seq.synthetic.get 0 = none ∧
      (after (.message (note 3 2 5)) emergency).disp.seq.views = emergency.disp.seq.views ∧
      emergency.disp.seq.synthetic.get 0 ≠ none) :=
  ⟨⟨by decide, by unfold ChangesSlot MessageTaken; decide, by decide⟩,
    ⟨by decide, by unfold ChangesSlot MessageTaken; decide, by decide⟩,
    ⟨⟨rfl, rfl, _, _, rfl⟩, by decide, _, _, List.mem_cons_of_mem _ List.mem_cons_self, _, _, _, _, _, _, _, rfl, by decide⟩,
    by decide⟩

theorem witness_FilteredLevelRaisesTheAlert :
    (alerting.contacts.get 0).filterTimer = some 50 ∧ (alerting.contacts.get 0).raw ≠ (alerting.contacts.get 0).filtered ∧
      (alerting.contacts.get 0).state = .watching ∧ (alerting.contacts.get 0).latch = none ∧
      ActiveAt alerting 0 (alerting.contacts.get 0).raw ∧
      ((after (.contactChange 1 .low) shown).contacts.get 1).filterTimer = some 50 ∧
      ((after (.contactChange 1 .low) shown).contacts.get 1).state = .disabled := by
  unfold ActiveAt
  decide

/-- A contact that settles, one that is disabled, one that watches, with active inputs and inactive ones. -/
theorem witness_LevelContactsAreJudgedWhenTheyWatch :
    ((afterAll [.setContactEnable 0 1, .restart false] shown).contacts.get 0).settlingTimer = some 50 ∧
      ((afterAll [.setContactEnable 0 1, .restart false] shown).contacts.get 0).latch = none ∧
      (shown.settings.contacts.get 0).enable = false ∧ (shown.contacts.get 0).latch = none ∧
      (alarmed.settings.contacts.get 0).enable = true ∧ (alarmed.contacts.get 0).latch ≠ none ∧
      (alerting.contacts.get 0).state = .watching ∧ (alerting.contacts.get 0).latch = none ∧
      ¬ActiveAt shown 0 (shown.contacts.get 0).filtered ∧
      (shown.settings.contacts.get 0).enable = decide (0 ≠ 0) ∧
      ActiveAt (after (.setContactPolarity 0 1) alerting) 0 (alerting.contacts.get 0).filtered := by
  unfold ActiveAt
  decide

theorem witness_AckAlertClearsAnAlertThatIsOver :
    3 < 4 ∧ (shown.contacts.get 3).latch = none ∧ (alarmed.contacts.get 0).latch ≠ none ∧
      (alarmed.settings.contacts.get 0).mode = .level ∧ ActiveAt alarmed 0 (alarmed.contacts.get 0).filtered ∧
      (quiet.contacts.get 0).latch ≠ none ∧
      ¬((quiet.settings.contacts.get 0).mode = .level ∧ ActiveAt quiet 0 (quiet.contacts.get 0).filtered) := by
  unfold ActiveAt
  decide

/-- A mode that changes a view to BLANK, and one that changes it from BLANK. -/
theorem witness_ModeChoosesTheViewsAgain :
    2 < 3 ∧ shown.mgmt.mode = .run ∧ shown.mgmt.mode ≠ .night ∧
      shown.disp.seq.views.get 0 = some .normal ∧ (after (.mode 1) shown).disp.seq.views.get 0 = some .blank ∧
      (after (.mode 0) (after (.mode 1) shown)).disp.seq.views.get 0 = some .normal ∧
      (after (.mode 0) (after (.mode 1) emergency)).disp.seq.views.get 0 = some .emergency ∧
      shown.tables.activeBank.zones.wf ∧
      shown.scene.zones.any (fun e => e.1 = 1 ∧ e.2.2.2.kind = .rows 0 0 0 1 0 2 5) = true := by
  unfold Table.wf
  decide

/-! ### Tables, settings and reports -/

/-- A coder with a FAULTED standby bank. -/
def faulted : State := after (.tableLoad 9 0 []) shown

theorem witness_TableLoadWritesItsRecordAlone :
    Busy waiting ∧ ¬Busy faulted ∧ faulted.tables.standby = .faulted ∧ ¬Busy shown ∧
      shown.tables.standby ≠ .faulted ∧ (loadRecord shown.tables.standbyBank 0 0 [4, 0, 0, 0]).toOption = none ∧
      (loadRecord shown.tables.standbyBank 0 0 [5, 0, 0, 0]).toOption.isSome = true := by
  unfold Busy
  decide

/-- A panel record: bus A, address 9, 64 by 16, on sensor 1, with fallback string 3. -/
def panelRecord : List Byte := [1, 0, 9, 0, 64, 16, 0, 0, 1, 1, 0, 0, 0, 0, 20, 1, 0, 3]

/-- A zone record: ROWS of board 2. -/
def zoneRecord : List Byte := [1, 0, 0, 0, 0, 32, 16, 0, 8, 0, 2, 0, 0, 2, 1, 1, 5]

/-- A record of each table that meets the fields its load asks for. -/
theorem witness_FontToCurveRecordsAreJudged :
    FontFields [7, 1, 0, 10] ⟨7, 1, 10⟩ ∧ (∀ f, ¬FontFields [4, 1, 0, 10] f) ∧
      CurveFields [2, 32, 40, 96, 120] [(32, 40), (96, 120)] ∧ bank.fonts.find 0 = some ⟨7, 1, 0⟩ ∧
      byteAt [0, 5] 1 ≤ 16 ∧ byteAt [0, 0] 1 = 0 ∧ bank.fonts.find 3 = none ∧
      (⟨List.replicate 48 200, [1, 2, 3, 4, 5, 6, 7, 8]⟩ : Palette).colours =
        (List.replicate 48 (200 : Byte) ++ [1, 2, 3, 4, 5, 6, 7, 8]).take 48 := by
  refine ⟨⟨rfl, by unfold Font.Ok InRange; decide⟩, fun f h => ?_, ?_, by decide, by decide, by decide, by decide, by decide⟩
  · obtain ⟨rfl, h⟩ := h
    exact absurd h (by unfold Font.Ok InRange; decide)
  · refine ⟨by unfold InRange; decide, by decide, fun k hk => ?_, fun k p q hp hq => ?_⟩
    · have : k = 0 ∨ k = 1 := by simp at hk; omega
      obtain rfl | rfl := this <;> decide
    · match k with
      | 0 => cases hp; cases hq; decide
      | 1 => cases hq
      | _ + 2 => cases hp

theorem witness_FormatPanelAndZoneRecordsAreJudged :
    FormatFields [1, 3, 0, 0, 0, 32, 0, 2] [⟨.scheduled, 0, 32, .left, .time⟩] ∧
      PanelFields panelRecord ⟨.busA, 9, 64, 16, 0, 0, 1, .sensor 1, .full, 0, 20, some 3⟩ ∧
      (∀ e ∈ bank.panels, e.1 ≠ 2 → ¬(e.2.bus = .busA ∧ e.2.address = 9)) ∧
      ZoneFields zoneRecord ⟨.rows 2 0 0 2 1 1 5, 0, 0, 32, 16, 0, none, .primary⟩ := by
  refine ⟨⟨by decide, by unfold FormatOk Column.Ok InRange; decide, fun k c h => ?_⟩,
    ⟨by decide, by decide, by decide, by decide, by decide, by decide, by decide, .inl ⟨1, by decide, rfl⟩, by decide,
      by decide, by decide, .inr ⟨by decide, by decide, by decide⟩, ?_⟩, by decide,
    ⟨by decide, by decide, by decide, by decide, by decide, by decide, by decide, .inl ⟨by decide, 2, by decide, by decide⟩,
      by unfold Zone.Ok ZoneKind.Ok InRange; decide⟩⟩
  · match k with
    | 0 => cases h; exact ⟨by decide, by decide, by decide, by decide, by decide, by unfold Column.Ok InRange; decide⟩
    | _ + 1 => cases h
  · refine ⟨by unfold InRange; decide, by unfold InRange; decide, by decide, by unfold InRange; decide, by decide, by decide,
      fun level h => (by cases h), by decide, by unfold InRange; decide, fun v hv => (by cases hv; decide)⟩

/-- Two codes and an empty second variant, which the empty bank takes; a code of 512, which it refuses. -/
theorem witness_StringLoadKeepsThePoolLimit :
    (loadRecord Bank.empty 2 1023 (stringRecord [1, 511] (some []))).toOption.isSome = true ∧
      (loadRecord Bank.empty 2 1023 (stringRecord [512] none)).toOption = none ∧ 1023 ≤ 1023 ∧
      [(1 : Byte), 0].length < 2 + 2 * byteAt [1, 0] 0 := by decide

theorem witness_BankCommandsWriteTheStandbyBank :
    Busy waiting ∧ ¬Busy shown ∧ ¬Busy faulted ∧ faulted.tables.standby = .faulted ∧ shown.tables.standby ≠ .faulted ∧
      (after .bankCopy shown).tables.copyTimer = some 80 := by
  unfold Busy
  decide

/-- Panel 0's frame in flight and panel 1's coded ahead. -/
def ahead : State := afterAll [.frameChoice .busA, .frameChoice .busA] shown

/-- A swap with a frame in flight on one bus and none on the other, to a bank without its panel and to one with it. -/
theorem witness_PendingSwapIsApplied : waiting.tables.swapPending = true ∧ (shown.scene.panel 0).isSome = true ∧
    shown.scene.panel 15 = none ∧ (after .bankSwap ahead).tables.swapPending = true ∧
    (after .bankSwap ahead).buses.a.inFlight.isSome = true ∧ (after .bankSwap ahead).buses.b.inFlight = none ∧
    (afterAll [.bankSwap, .swapApplied] ahead).scene.panel 0 = none ∧
    ((afterAll [.bankCopy, .bankCopyComplete, .bankSwap, .swapApplied] ahead).scene.panel 0).isSome = true := by decide

theorem witness_BusEnableHandsItsCodedAheadFrameBack :
    (after (.setBusEnable .busA 0) shown).settings.busEnable.get .busA = false ∧
      shown.settings.busEnable.get .busA = true ∧ shown.buses.a.codedAhead = none ∧ ahead.buses.a.codedAhead.map (fun f => (f.panel, f.work)) =
      some (1, .view .unblank) := by decide

/-- Groups whose sensors are not seeded, and groups on the curve. -/
theorem witness_FallbackLevelMovesFallbackGroups :
    (shown.light.sensors.get 0).seeded = false ∧ shown.tables.activeBank.curve ≠ none ∧
      ((after (.lightSample 64 0 0 0) shown).light.sensors.get 0).seeded = true ∧
      ((after (.lightSample 64 0 0 0) shown).light.sensors.get 0).state = .good ∧
      ((after (.setSensorFallbackLevel 10) shown).light.groups.get 0).level ≠ (shown.light.groups.get 0).level ∧
      (shown.scene.panel 0).map PanelRow.dim = some (.sensor 0) := by decide

/-- A queue with room and a full one. -/
theorem witness_QueryJoinsItsReportToTheOwnQueue :
    shown.trunk.own.length < 4 ∧ 4 ≤ (afterAll (List.replicate 4 (.queryBank 0)) shown).trunk.own.length ∧ 5 < 6 ∧
      7 < 8 ∧ 15 < 16 ∧ 1 ≠ 0 := by decide

/-- A number that names no setting. -/
theorem witness_SetBringsItsValueIntoRange :
    (Instr.setUnknownSetting 14 0).wf = true ∧ (Instr.setUnknownSetting 40 0).wf = true := by decide

/-- A state with room for a report, a refusal recorded, one panel on a sensor, one FIXED and one absent. -/
theorem witness_ReportsReadBack :
    faulted.trunk.own.length < 4 ∧ faulted.mgmt.refusal = some (0x40, .badIndex) ∧ shown.mgmt.refusal = none ∧
      (faulted.scene.panel 0).map PanelRow.dim = some (.sensor 0) ∧
      (faulted.scene.panel 1).map PanelRow.dim = some (.fixed 255) ∧ faulted.scene.panel 15 = none ∧
      (settingValues faulted.settings)[37]? = some 1009 := by decide

theorem witness_BoardReportListsTheBoardInOrder :
    BoardOk (full.boards.get 0) ∧ full.trunk.own = [] ∧ ¬(full.boards.get 0).length ≤ 8 ∧
      (posted.boards.get 0).length ≤ 8 ∧ 4 ≤ (afterAll (List.replicate 4 (.queryBank 0)) full).trunk.own.length :=
  ⟨witness_board_full, by decide, by decide, by decide, by decide⟩

/-! ### Frames, buses and light -/

theorem witness_BrightnessFollowsTheCurve : CurveOk [(32, 40), (96, 120)] ∧ 255 ≤ 255 := by
  unfold CurveOk
  decide

/-- A bus with candidates in one tier, and with one in each. -/
theorem witness_FrameChoiceServesItsTierInTurn :
    shown.buses.a.codedAhead = none ∧ shown.settings.busEnable.get .busA = true ∧ shown.buses.a.state ≠ .held ∧
      Candidate shown .busA 0 ∧ Candidate shown .busA 1 ∧ Candidate emergency .busA 0 ∧
      emergency.disp.seq.views.get 0 = some .emergency ∧ (∀ p, ¬Candidate shown .busB p) ∧
      ahead.buses.a.codedAhead ≠ none := by
  have on (s : State) (p : Fin 16) (h : (s.scene.panel p).map PanelRow.bus = some .busA ∧
      (s.disp.panels.get p).state = .starting ∧ (s.disp.panels.get p).palettePending = true ∧
      (s.disp.panels.get p).gapTimer = none ∧ s.buses.a.inFlight = none ∧ s.buses.a.codedAhead = none) :
      Candidate s .busA p := by
    obtain ⟨h1, h2, h3, h4, h5, h6⟩ := h
    obtain ⟨row, hr, hb⟩ := Option.map_eq_some_iff.mp h1
    refine ⟨⟨row, hr, hb⟩, .inl ⟨.inl h2, .inr (.inl h3)⟩, h4, fun f hf => ?_, fun f hf => ?_⟩
    · cases (show s.buses.a.inFlight = some f from hf) ▸ h5
    · cases (show s.buses.a.codedAhead = some f from hf) ▸ h6
  refine ⟨by decide, by decide, by decide, on _ _ (by decide), on _ _ (by decide), on _ _ (by decide), by decide,
    fun p h => ?_, by decide⟩
  obtain ⟨⟨row, hr, hb⟩, -⟩ := h
  have all : ∀ q, (shown.scene.panel q).map PanelRow.bus ≠ some .busB := by decide
  exact all p (by rw [hr, Option.map_some, hb])

theorem witness_FramesSpellTheirLinesAndSumToZero :
    (∃ row, shown.scene.panel 0 = some row ∧ row.width ≤ 384 ∧
      (∃ pal, shown.tables.activeBank.palettes.find row.palette = some pal ∧ pal.Ok) ∧ row.dim = .sensor 0) ∧
      State.reset.tables.activeBank.palettes.find 0 = none ∧ [1, 1, 2].length ≤ 384 :=
  ⟨⟨_, rfl, by decide, ⟨_, rfl, by unfold Palette.Ok; decide⟩, rfl⟩, by decide, by decide⟩

/-- A glyph that is present and one that is not, a string with a second variant and one that is absent. -/
theorem witness_TextsAreSetInTheirPlaces :
    (bank.glyphs.find 1).isSome = true ∧ bank.glyphs.find 2 = none ∧ bank.strings.find 0 = some ⟨[1, 1], some [0]⟩ ∧
      bank.strings.find 5 = none ∧ (SetText.mk ⟨7, 1, 0⟩ [0, 2, 1] 3 2).sets bank 9 2 = true := by decide

/-- A panel in each view. -/
theorem witness_ComposedLineFollowsItsViewAndZones :
    shown.scene.bank.zones.wf ∧ (shown.scene.panel 0).isSome = true ∧ shown.disp.seq.views.get 0 = some .normal ∧
      (after (.mode 2) shown).disp.seq.views.get 0 = some .test ∧
      (after (.mode 1) shown).disp.seq.views.get 0 = some .blank ∧
      (after .silent { shown with trunk := { shown.trunk with silence := 59 } }).disp.seq.views.get 0 = some .fallback ∧
      emergency.disp.seq.views.get 0 = some .emergency ∧ (emergency.disp.seq.synthetic.get 0).isSome = true := by
  unfold Table.wf
  decide

/-- A bus whose frame has gone out. -/
def awaiting : State := afterAll [.frameChoice .busA, .frameSent .busA] shown

/-- A FAULT panel a second before its probe. -/
def probing : State := { shown with
  disp := shown.disp.onPanel 0 fun r => { r with state := .fault, failures := 8, probeTimer := some 1 } }

theorem busOk_plain {low : Bool} {bus : PanelBus}
    (h : (bus.inFlight.isSome = true ↔ bus.state = .sending ∨ bus.state = .awaiting) ∧
      (bus.holdTimer.isSome = true ↔ bus.state = .awaiting ∧ low = true) ∧
      (bus.answerTimer.isSome = true ↔ bus.state = .awaiting ∧ low = false) ∧ (bus.state = .held → low = true) ∧
      (bus.state = .idle ∨ bus.state = .sending → low = false) ∧ (bus.state = .idle → bus.codedAhead = none) ∧
      bus.codedAhead = none ∧ bus.inFlight.all (fun f =>
        decide (f.chars.map BusChar.marker = true :: List.replicate (f.chars.length - 1) false ∧
          sumBytes (f.chars.map BusChar.data) = 0)) = true) : bus.Ok low := by
  obtain ⟨h1, h2, h3, h4, h5, h6, h7, h8⟩ := h
  refine ⟨h1, h2, h3, h4, h5, h6, ?_, ?_, ?_⟩
  · intro f g _ hg
    rw [h7] at hg
    cases hg
  · intro f hf
    rw [hf] at h8
    simpa [Frame.Spelled] using h8
  · intro g hg
    rw [h7] at hg
    cases hg

theorem witness_TimersAndTheClockLineMoveTheBus :
    (after (.frameChoice .busA) shown).buses.a.state = .sending ∧ (probing.disp.panels.get 0).state = .fault ∧
      (probing.disp.panels.get 0).probeTimer = some 1 ∧ (shown.buses.a).Ok false ∧ (awaiting.buses.a).Ok false ∧
      ((after (.frameChoice .busA) shown).buses.a).Ok false ∧
      ((after (.clockLineLow .busA) awaiting).buses.a).Ok true ∧ ((after (.clockLineLow .busA) shown).buses.a).Ok true ∧
      (after (.clockLineLow .busA) shown).buses.a.state = .held ∧
      (∃ f row, Flying .sending (after (.frameChoice .busA) shown) .busA f row) :=
  ⟨by decide, by decide, by decide, busOk_plain (by decide), busOk_plain (by decide), busOk_plain (by decide),
    busOk_plain (by decide), busOk_plain (by decide), by decide, ⟨_, _, rfl, rfl, rfl, rfl, by decide⟩⟩

/-- The same after a swap to an empty bank: the frame is orphaned. -/
def orphan : State := afterAll [.bankClear, .bankSwap, .swapApplied] awaiting

theorem witness_AckBringsThePanelOnlineUnlessOrphaned :
    (∃ f row, Flying .awaiting awaiting .busA f row) ∧ orphan.buses.a.state = .awaiting ∧
      orphan.buses.a.inFlight.map Frame.orphaned = some true ∧ orphan.buses.a.answerTimer ≠ none ∧
      (after (.clockLineLow .busA) orphan).buses.a.holdTimer ≠ none ∧ shown.buses.a.state ≠ .awaiting :=
  ⟨⟨_, _, rfl, rfl, rfl, rfl, by decide⟩, by decide, by decide, by decide, by decide, by decide⟩

/-- An awaited frame whose panel has failed seven times. -/
def seven : State := { awaiting with disp := awaiting.disp.onPanel 0 fun r => { r with failures := 7 } }

theorem witness_FailureHandsTheWorkBack :
    (∃ f row, Flying .awaiting seven .busA f row ∧ f.panel = 0) ∧ (seven.disp.panels.get 0).state ≠ .fault ∧
      7 ≤ (seven.disp.panels.get 0).failures ∧ (∀ g, seven.buses.b.inFlight = some g → g.panel ≠ 0) ∧
      awaiting.buses.a.answerTimer ≠ none ∧
      (∃ f row, Flying .awaiting (after (.clockLineLow .busA) awaiting) .busA f row) ∧
      (after (.clockLineLow .busA) awaiting).buses.a.holdTimer ≠ none :=
  ⟨⟨_, _, ⟨rfl, rfl, rfl, rfl, by decide⟩, rfl⟩, by decide, by decide, (fun g hg => nomatch hg), by decide,
    ⟨_, _, rfl, rfl, rfl, rfl, by decide⟩, by decide⟩

/-- Sensor 0 one sample short of failing, sensor 1 failed and one short of being restored. -/
def judged : State := { shown with light := { shown.light with
  sensors := (shown.light.sensors.set 0 ⟨true, 2040, 255, .good, 39⟩).set 1 ⟨true, 2040, 10, .failed, 39⟩ } }

theorem witness_SamplesMoveSensorsAndGroups :
    (∀ n, (judged.light.sensors.get n).Ok) ∧ (judged.light.sensors.get 0).state = .good ∧
      (judged.light.sensors.get 0).run = 39 ∧ (judged.light.sensors.get 1).state = .failed ∧
      (judged.light.sensors.get 1).run = 39 ∧ (254 : Byte) ≠ 255 ∧
      ((after (.lightSample 64 0 0 0) shown).light.groups.get 0).level ≠ (shown.light.groups.get 0).level := by
  unfold Sensor.Ok
  decide

/-! ### The trunk -/

/-- A coder strapped to node 5. -/
def node5 : State := { shown with trunk := { shown.trunk with node := 5 } }

theorem witness_CellOfACommandDoesTheCommand :
    (Instr.entry (body 0 5 30000)).wf = true ∧ node5.trunk.rxTrunk = .hunt ∧ node5.trunk.node ≠ 0 ∧
      (encodeCell? 5 (.entry (body 0 5 30000))).isSome = true ∧ (encodeCell? 0 (.restart true)).isSome = true := by decide

/-- A good cell to another node with room and with none, one of an unknown kind, one of a wrong length, one too short. -/
theorem witness_GoodCellsAreForwardedOrJudged :
    GoodCell [0x43, 9, 0, 0xB4] ∧ node5.trunk.forward.length < 4 ∧
      4 ≤ (afterAll (List.replicate 4 (.trunkCell [0x43, 9, 0, 0xB4])) node5).trunk.forward.length ∧
      (byteAt [0x01, 0, 0, 0xFF] 1 = 0 ∧ GoodCell [0x01, 0, 0, 0xFF]) ∧ GoodCell [0x01, 5, 0, 0xFA] ∧ GoodCell [0x43, 5, 1, 0, 0xB7] ∧ GoodCell [0x20, 5, 0, 0xDB] ∧
      node5.trunk.silent = false ∧
      (after .silent { node5 with trunk := { node5.trunk with silence := 59 } }).trunk.silent = true ∧
      (after (.trunkCell [0x43, 9, 0, 0xB4])
        (after .silent { node5 with trunk := { node5.trunk with silence := 59 } })).disp.seq.views.get 0 = some .normal := by
  unfold GoodCell
  decide

theorem witness_CharactersMakeTheCellOrAbandonIt_abandon :
    cellShape [0x43, 9, 0, 0xB5] = true ∧ sumBytes [0x43, 9, 0, 0xB5] ≠ 0 ∧ node5.trunk.rxTrunk = .hunt ∧
      node5.trunk.rxReturn = .hunt ∧
      (after (.characterArrival .trunkIn ⟨0x43, true, true⟩) node5).trunk.receiver .trunkIn = .collect [0x43] ∧
      (afterAll [.characterArrival .returnIn ⟨0x43, true, true⟩, .characterArrival .returnIn ⟨0, false, true⟩]
        node5).trunk.receiver .returnIn = .collect [0x43, 0] := by decide

theorem witness_CharactersMakeTheCellOrAbandonIt :
    cellShape [0x43, 5, 0, 0xB8] = true ∧ cellShape [0x49, 5, 1, 7, 0] = true ∧ node5.trunk.rxTrunk = .hunt ∧
      node5.trunk.rxReturn = .hunt ∧
      (afterAll [.characterArrival .trunkIn ⟨0x20, true, true⟩, .characterArrival .trunkIn ⟨0, false, true⟩]
        node5).trunk.receiver .trunkIn = .collect [0x20, 0] ∧ (250#8).toNat ≤ 250 ∧
      (afterAll [.characterArrival .trunkIn ⟨0x49, true, true⟩, .characterArrival .trunkIn ⟨0, false, true⟩,
        .characterArrival .trunkIn ⟨1, false, true⟩] node5).trunk.receiver .trunkIn = .collect [0x49, 0, 1] ∧
      3 ≠ byteAt [0x49, 0, 1] 2 + 3 := by decide

/-- The return lane sending, with both queues holding cells, and with one. -/
def merging : State := afterAll [.queryBank 0, .returnCell [0x60, 6, 4, 3, 0, 1, 1, 0x91], .queryBank 0] node5

theorem witness_QueuesSendInTurn :
    GoodCell [0x60, 6, 4, 3, 0, 1, 1, 0x91] ∧ node5.trunk.relay.length < 4 ∧ node5.trunk.sending = none ∧
      merging.trunk.sending = some .own ∧ (after .returnOutCellSent merging).trunk.sending = some .relay ∧
      (afterAll [.returnOutCellSent, .returnOutCellSent] merging).trunk.sending = some .own ∧
      4 ≤ (afterAll (List.replicate 5 (.returnCell [0x60, 6, 4, 3, 0, 1, 1, 0x91])) node5).trunk.relay.length := by
  unfold GoodCell
  decide

end Sys2Proof.Tests
end

/-! Departure boards: the order of a board, where an entry is put and found, the entry an ENTRY posts, and what replacing
a board does; from these the statements on ENTRY, WITHDRAW and CLEAR_BOARD. -/

namespace Sys2Proof.Machine.Claims

/-! ### The order of a board (R4) -/

theorem keyOf_eq_key (e : Entry) : keyOf e = e.key := by
  unfold keyOf Entry.key
  cases e.expected <;> rfl

/-- The model's test of the order decides the order of R4. -/
theorem before_iff_ordersBefore (a b : Entry) : a.before b = true ↔ OrdersBefore a b := by
  simp only [Entry.before, OrdersBefore, keyOf_eq_key, decide_eq_true_eq]

theorem OrdersBefore.trans {a b c : Entry} (hab : OrdersBefore a b) (hbc : OrdersBefore b c) : OrdersBefore a c := by
  unfold OrdersBefore at *
  omega

theorem OrdersBefore.asymm {a b : Entry} (hab : OrdersBefore a b) : ¬OrdersBefore b a := by
  unfold OrdersBefore at *
  omega

/-- Entries of different ids are in order one way or the other. -/
theorem ordersBefore_of_not {a b : Entry} (hne : b.sid ≠ a.sid) (hab : ¬OrdersBefore a b) : OrdersBefore b a := by
  unfold OrdersBefore at *
  omega

/-- A board in order holds each id once, in the order of R4. -/
theorem nodup_and_ordered_of_boardOk {l : List Entry} (h : BoardOk l) :
    (l.map Entry.sid).Nodup ∧ l.Pairwise OrdersBefore := by
  obtain ⟨-, hnodup, hbefore, -⟩ := h
  exact ⟨hnodup, hbefore.imp fun hab => (before_iff_ordersBefore _ _).mp hab⟩

/-! ### An entry put into a board (R4, R8) -/

theorem insertEntry_eq_orderedInsert (e : Entry) (l : List Entry) :
    insertEntry e l = l.orderedInsert (fun a b => a.before b = true) e := by
  induction l with
  | nil => rfl
  | cons x rest ih => rw [insertEntry, List.orderedInsert_cons, ih]

/-- Insertion adds the entry and loses none. -/
theorem insertEntry_perm (e : Entry) (l : List Entry) : (insertEntry e l).Perm (e :: l) := by
  rw [insertEntry_eq_orderedInsert]
  exact List.perm_orderedInsert _ e l

/-- Insertion of an entry whose id is new keeps the order. -/
theorem insertEntry_ordered {e : Entry} {l : List Entry} (hord : l.Pairwise OrdersBefore)
    (hnew : ∀ x ∈ l, x.sid ≠ e.sid) : (insertEntry e l).Pairwise OrdersBefore := by
  induction l with
  | nil => exact List.pairwise_singleton _ e
  | cons x rest ih =>
    obtain ⟨hx, hrest⟩ := List.pairwise_cons.mp hord
    obtain ⟨hxnew, hrestnew⟩ := List.forall_mem_cons.mp hnew
    unfold insertEntry
    split
    next hbefore =>
      have hex : OrdersBefore e x := (before_iff_ordersBefore e x).mp hbefore
      exact List.pairwise_cons.mpr ⟨List.forall_mem_cons.mpr ⟨hex, fun y hy => hex.trans (hx y hy)⟩, hord⟩
    next hbefore =>
      have hxe : OrdersBefore x e := ordersBefore_of_not hxnew fun h => hbefore ((before_iff_ordersBefore e x).mpr h)
      refine List.pairwise_cons.mpr ⟨fun y hy => ?_, ih hrest hrestnew⟩
      rcases List.mem_cons.mp ((insertEntry_perm e rest).mem_iff.mp hy) with rfl | hy
      · exact hxe
      · exact hx y hy

/-! ### The position of an id (R1) -/

theorem positionOf_eq_none_iff {sid : Nat} {l : List Entry} : positionOf sid l = none ↔ ∀ x ∈ l, x.sid ≠ sid := by
  simp [positionOf]

theorem positionOf_cons (sid : Nat) (x : Entry) (l : List Entry) :
    positionOf sid (x :: l) = if x.sid = sid then some 0 else (positionOf sid l).map (· + 1) := by
  simp [positionOf, List.findIdx?_cons]

/-- An id that stands on a board has a position, and the entry there has that id. -/
theorem exists_positionOf {sid : Nat} {l : List Entry} (h : ∃ x ∈ l, x.sid = sid) :
    ∃ i x, positionOf sid l = some i ∧ l[i]? = some x ∧ x ∈ l ∧ x.sid = sid := by
  induction l with
  | nil => simp at h
  | cons y rest ih =>
    by_cases hy : y.sid = sid
    · exact ⟨0, y, by rw [positionOf_cons, if_pos hy], rfl, List.mem_cons_self, hy⟩
    · obtain ⟨i, x, hpos, hget, hmem, hsid⟩ := ih (by simpa [hy] using h)
      exact ⟨i + 1, x, by rw [positionOf_cons, if_neg hy, hpos]; rfl, hget, List.mem_cons_of_mem _ hmem, hsid⟩

/-- An inserted entry has a place, whatever a missing position would be read as. -/
theorem getD_positionOf_insertEntry (e : Entry) (l : List Entry) (d : Nat) :
    (positionOf e.sid (insertEntry e l)).getD d = place e.sid (insertEntry e l) := by
  obtain ⟨i, -, hpos, -⟩ :=
    exists_positionOf ⟨e, (insertEntry_perm e l).mem_iff.mpr List.mem_cons_self, rfl⟩
  rw [place, hpos, Option.getD_some, Option.getD_some]

/-- On a board of unique ids, what is left without an id's position is every entry of another id. -/
theorem eraseIdx_positionOf {sid i : Nat} {l : List Entry} (hnodup : (l.map Entry.sid).Nodup)
    (hpos : positionOf sid l = some i) : l.eraseIdx i = l.filter fun x => decide (x.sid ≠ sid) := by
  induction l generalizing i with
  | nil => rfl
  | cons y rest ih =>
    obtain ⟨hy, hrest⟩ := List.nodup_cons.mp hnodup
    rw [positionOf_cons] at hpos
    split at hpos
    next heq =>
      have hothers : ∀ x ∈ rest, decide (x.sid ≠ sid) = true := fun x hx =>
        decide_eq_true fun hxs => hy (heq ▸ hxs ▸ List.mem_map_of_mem hx)
      obtain rfl := Option.some.inj hpos
      rw [List.filter_cons_of_neg (by simp [heq]), List.filter_eq_self.mpr hothers, List.eraseIdx_cons_zero]
    next hne =>
      obtain ⟨k, hk, rfl⟩ := Option.map_eq_some_iff.mp hpos
      rw [List.filter_cons_of_pos (by simp [hne]), List.eraseIdx_cons_succ, ih hrest hk]

/-- On a board of unique ids, a test of the entries of one id is a test of the one that stands there. -/
theorem any_sid_eq {x : Entry} {l : List Entry} (hnodup : (l.map Entry.sid).Nodup) (hmem : x ∈ l) (test : Entry → Bool) :
    (l.any fun y => decide (y.sid = x.sid) && test y) = test x := by
  rw [Bool.eq_iff_iff, List.any_eq_true]
  constructor
  · rintro ⟨y, hy, htest⟩
    obtain ⟨hsid, htest⟩ := Bool.and_eq_true_iff.mp htest
    rwa [← List.inj_on_of_nodup_map hnodup hy hmem (of_decide_eq_true hsid)]
  · exact fun htest => ⟨x, hmem, by simp [htest]⟩

/-! ### The entry that an ENTRY posts (R2, R5, R6) -/

theorem ranged_eq_some {lo hi n : Nat} (h : lo ≤ n ∧ n ≤ hi) : ranged lo hi n = some n := by
  simp [ranged, keepIf, h]

theorem optionalRanged_eq_some {present : Bool} {lo hi v : Nat} (h : present = true → lo ≤ v ∧ v ≤ hi) :
    optionalRanged present lo hi v = some (carried present v) := by
  cases present with
  | false => rfl
  | true => simp [optionalRanged, carried, ranged_eq_some (h rfl)]

theorem statusOf?_codes {code : Nat} (h : code ≤ 3) : ∃ st, statusOf? code = some st ∧ CodesStatus code st := by
  unfold CodesStatus
  interval_cases code <;> simp [statusOf?]

/-- The derivation does not read the field and the role that it sets. -/
theorem derive_rederived (st : Settings) (clock : StationClock) (e : Entry) :
    derive st clock (e.rederived st clock) = derive st clock e := rfl

theorem sid_le_of_wf {body : EntryBody} (h : body.wf = true) : body.sid ≤ 65535 := by
  simp only [EntryBody.wf, fitsBytes, Bool.and_eq_true, decide_eq_true_eq] at h
  omega

/-- An ENTRY with no bad field posts an entry, on one of the eight boards. -/
theorem postedEntry?_of_good {body : EntryBody} (hwf : body.wf = true) (h : ¬EntryBad body) (st : Settings)
    (clock : StationClock) : ∃ e, postedEntry? body = some e ∧ Posts st clock body (e.rederived st clock) := by
  have hsidMax := sid_le_of_wf hwf
  simp only [EntryBad, not_or, not_and] at h
  obtain ⟨-, hsid, hsched, hexpected, hplatform, hcars, hdest, hvia, hstatus⟩ := h
  obtain ⟨status, hcode, hcodes⟩ := statusOf?_codes (Nat.le_of_not_lt hstatus)
  refine ⟨⟨body.sid, body.dest, carried (body.presence.getLsbD 0) body.via,
    carried (body.presence.getLsbD 1) body.platform, body.sched, carried (body.presence.getLsbD 2) body.expected, status,
    carried (body.presence.getLsbD 3) body.cars, body.presence.getLsbD 4, 0, .due, .time⟩, ?_,
    rfl, rfl, rfl, rfl, rfl, rfl, hcodes, rfl, rfl, rfl, (derive_rederived st clock _).symm⟩
  have hvia := optionalRanged_eq_some (lo := 0) (hi := 1023) fun hp => ⟨Nat.zero_le _, Nat.le_of_not_lt (hvia hp)⟩
  have hplatform := optionalRanged_eq_some (v := body.platform) (lo := 1) (hi := 32) fun hp => by have := hplatform hp; omega
  have hexpected := optionalRanged_eq_some (lo := 0) (hi := lastSecond) fun hp =>
    ⟨Nat.zero_le _, Nat.le_of_not_lt (hexpected hp)⟩
  have hcars := optionalRanged_eq_some (v := body.cars) (lo := 1) (hi := 12) fun hp => by have := hcars hp; omega
  simp only [postedEntry?, ranged_eq_some (n := body.sid) ⟨Nat.pos_of_ne_zero hsid, hsidMax⟩,
    ranged_eq_some (n := body.dest) ⟨Nat.zero_le _, Nat.le_of_not_lt hdest⟩, hvia, hplatform,
    ranged_eq_some (n := body.sched) (hi := lastSecond) ⟨Nat.zero_le _, Nat.le_of_not_lt hsched⟩, hexpected, hcode, hcars]
  rfl

/-- The Board Engine posts what an ENTRY with no bad field carries, derived afresh (R5, R6). -/
theorem takeEntry_of_good {body : EntryBody} {b : Fin 8} (s : State) (hwf : body.wf = true) (h : ¬EntryBad body)
    (hb : body.board = b.val) :
    ∃ e, exec (.entry body) s = .next (postEntry s b e) ∧ Posts s.settings s.clock body e := by
  obtain ⟨e, hposted, hposts⟩ := postedEntry?_of_good hwf h s.settings s.clock
  refine ⟨e.rederived s.settings s.clock, ?_, hposts⟩
  change Host.Outcome.next (takeEntry body s) = _
  simp only [takeEntry, hb, finOf?_val, hposted]

/-! ### The cases of a posting (R7, R8, R9) -/

theorem postEntry_of_present {s : State} {b : Fin 8} {e x : Entry} {i : Nat}
    (hpos : positionOf e.sid (s.boards.get b) = some i) (hget : (s.boards.get b)[i]? = some x) :
    postEntry s b e = replaceEntry s b e i x := by
  simp only [postEntry, hpos, hget]

theorem postEntry_of_room {s : State} {b : Fin 8} {e : Entry} (hnew : ∀ x ∈ s.boards.get b, x.sid ≠ e.sid)
    (hroom : (s.boards.get b).length < 16) : postEntry s b e = insertNew s b e := by
  have hlast : (s.boards.get b)[boardSize - 1]? = none := List.getElem?_eq_none (Nat.le_of_lt_succ hroom)
  simp only [postEntry, positionOf_eq_none_iff.mpr hnew, hlast]

theorem postEntry_of_full {s : State} {b : Fin 8} {e last : Entry} (hnew : ∀ x ∈ s.boards.get b, x.sid ≠ e.sid)
    (hlast : (s.boards.get b)[15]? = some last) : postEntry s b e = insertFull s b e last := by
  simp only [postEntry, positionOf_eq_none_iff.mpr hnew, boardSize, hlast]

/-- Where the last entry of a full board orders before the newcomer, only BOARD_OVERFLOW is raised (R9). -/
theorem insertFull_of_last_before {s : State} {b : Fin 8} {e last : Entry} (h : OrdersBefore last e) :
    insertFull s b e last = s.onFlags (Flags.raiseOverflow b) :=
  if_neg fun hbefore => h.asymm ((before_iff_ordersBefore e last).mp hbefore)

/-- Where the newcomer orders before the last entry, that entry leaves and the newcomer is inserted (R9). -/
theorem insertFull_of_before_last {s : State} {b : Fin 8} {e last : Entry} (h : OrdersBefore e last) :
    insertFull s b e last =
      (s.onFlags (Flags.raiseOverflow b)).setBoard b (insertEntry e ((s.boards.get b).take 15))
        (some ⟨b, some (place e.sid (insertEntry e ((s.boards.get b).take 15)), 15), [last.sid]⟩) :=
  if_pos ((before_iff_ordersBefore e last).mpr h)

/-! ### Replacing a board (R17, R18) -/

theorem setBoard_get_self (s : State) (b : Fin 8) (l : List Entry) (n : Option Notice) :
    (s.setBoard b l n).boards.get b = l := by
  rw [setBoard_boards, Vec.get_set_self]

theorem setBoard_otherBoards (s : State) (b : Fin 8) (l : List Entry) (n : Option Notice) :
    OtherBoards b s (s.setBoard b l n) := fun b' hb' => by
  rw [setBoard_boards, Vec.get_set_of_ne _ hb'.symm]

/-- The notice is taken against the scene as the board stands after the change. -/
theorem setBoard_noticed (s : State) (b : Fin 8) (l : List Entry) (n : Option Notice) :
    Noticed n s (s.setBoard b l n) := by
  cases n <;> rfl

theorem setBoard_flags (s : State) (b : Fin 8) (l : List Entry) (n : Option Notice) :
    (s.setBoard b l n).mgmt.flags = s.mgmt.flags :=
  setBoard_changes s b l n .flags (by decide)

/-- A board replaced by itself, with no notice, is no change. -/
theorem setBoard_same (s : State) (b : Fin 8) : s.setBoard b (s.boards.get b) none = s := by
  rw [State.setBoard, Vec.set_get_self, State.give]

/-! ### BOARD_OVERFLOW (R9, R10) -/

theorem raiseOverflow_get (b b' : Fin 8) (f : Flags) :
    (f.raiseOverflow b).overflow.get b' = if b' = b then true else f.overflow.get b' := by
  rw [Flags.raiseOverflow, Vec.get_set]
  simp only [eq_comm]

/-- Overflow marks aside, raising one of them leaves the flags as they were. -/
theorem raiseOverflow_others (b : Fin 8) (f : Flags) : { f.raiseOverflow b with overflow := f.overflow } = f := rfl

/-- Where the newcomer is lost the board is replaced by itself: in both cases of R9 a full board's posting
is BOARD_OVERFLOW raised and then one board replaced. -/
theorem insertFull_eq_setBoard (s : State) (b : Fin 8) (e last : Entry) :
    ∃ l n, insertFull s b e last = (s.onFlags (Flags.raiseOverflow b)).setBoard b l n := by
  by_cases hbefore : e.before last = true
  · exact ⟨_, _, if_pos hbefore⟩
  · exact ⟨s.boards.get b, none, (if_neg hbefore).trans (setBoard_same (s.onFlags (Flags.raiseOverflow b)) b).symm⟩

theorem insertFull_flags (s : State) (b : Fin 8) (e last : Entry) :
    (insertFull s b e last).mgmt.flags = s.mgmt.flags.raiseOverflow b := by
  obtain ⟨l, n, h⟩ := insertFull_eq_setBoard s b e last
  rw [h, setBoard_flags, State.onFlags_mgmt]

theorem insertFull_otherBoards (s : State) (b : Fin 8) (e last : Entry) : OtherBoards b s (insertFull s b e last) := by
  obtain ⟨l, n, h⟩ := insertFull_eq_setBoard s b e last
  rw [h]
  exact setBoard_otherBoards (s.onFlags (Flags.raiseOverflow b)) b l n

theorem insertFull_changes (s : State) (b : Fin 8) (e last : Entry) :
    OnlyChanges [.boards, .dirty, .runtimes, .flags] s (insertFull s b e last) := by
  obtain ⟨l, n, h⟩ := insertFull_eq_setBoard s b e last
  rw [h]
  exact ((onFlags_changes s _).mono (by decide)).trans ((setBoard_changes _ b l n).mono (by decide))

/-! ### WITHDRAW and CLEAR_BOARD (R11, R12) -/

theorem exec_withdraw (board sid : Nat) (s : State) : exec (.withdraw board sid) s = .next (takeWithdraw board sid s) :=
  rfl

theorem exec_clearBoard (board : Nat) (s : State) : exec (.clearBoard board) s = .next (takeClearBoard board s) := rfl

theorem takeWithdraw_bad {board sid : Nat} (s : State) (h : 7 < board ∨ sid = 0) :
    takeWithdraw board sid s = s.refuse withdrawKind .badField := by
  unfold takeWithdraw
  split
  next b hb =>
    have := finOf?_eq_some.mp hb
    exact if_pos (by omega)
  next => rfl

theorem takeWithdraw_absent {b : Fin 8} {sid : Nat} {s : State} (hsid : sid ≠ 0)
    (h : ∀ x ∈ s.boards.get b, x.sid ≠ sid) : takeWithdraw b.val sid s = s := by
  simp only [takeWithdraw, finOf?_val, if_neg hsid, positionOf_eq_none_iff.mpr h]

theorem takeWithdraw_present {b : Fin 8} {sid i : Nat} {s : State} (hsid : sid ≠ 0)
    (h : positionOf sid (s.boards.get b) = some i) :
    takeWithdraw b.val sid s =
      s.setBoard b ((s.boards.get b).eraseIdx i) (some ⟨b, some (i, (s.boards.get b).length - 1), [sid]⟩) := by
  simp only [takeWithdraw, finOf?_val, if_neg hsid, h]

theorem takeClearBoard_bad {board : Nat} (s : State) (h : 7 < board) :
    takeClearBoard board s = s.refuse clearBoardKind .badField := by
  simp only [takeClearBoard, finOf?_eq_none.mpr h]

theorem takeClearBoard_good (b : Fin 8) (s : State) :
    takeClearBoard b.val s =
      s.setBoard b [] (if s.boards.get b = [] then none
        else some ⟨b, some (0, (s.boards.get b).length - 1), (s.boards.get b).map Entry.sid⟩) := by
  simp only [takeClearBoard, finOf?_val, emptied]

/-! ### The statements -/

/-- Settles O17: the posting is `replaceEntry`, and on a board of unique ids what it erases is the one entry of the
posted id. -/
theorem entryReplacesTheEntryOfItsId : Obligations.EntryReplacesTheEntryOfItsId := by
  intro body b s hwf hgood hb hok hstands
  obtain ⟨e, hexec, hposts⟩ := takeEntry_of_good s hwf hgood hb
  have hsid : e.sid = body.sid := hposts.1
  obtain ⟨hnodup, hord⟩ := nodup_and_ordered_of_boardOk hok
  obtain ⟨i, x, hpos, hget, hmem, hx⟩ := exists_positionOf hstands
  rw [← hsid] at hpos hx ⊢
  have hothers := eraseIdx_positionOf hnodup hpos
  have hplace : place e.sid (s.boards.get b) = i := by rw [place, hpos, Option.getD_some]
  have hdrawn := any_sid_eq hnodup hmem e.sameDrawn
  rw [hx] at hdrawn
  rw [postEntry_of_present hpos hget] at hexec
  refine ⟨replaceEntry s b e i x, e, hexec, hposts, ?_, ?_, setBoard_otherBoards s b _ _, ?_, setBoard_changes s b _ _⟩
  · rw [replaceEntry, setBoard_get_self, ← hothers]
    exact insertEntry_perm e _
  · rw [replaceEntry, setBoard_get_self, hothers]
    exact insertEntry_ordered (hord.filter _) fun y hy => of_decide_eq_true (List.mem_filter.mp hy).2
  · dsimp only
    rw [hplace, hdrawn, replaceEntry, setBoard_get_self, getD_positionOf_insertEntry]
    exact setBoard_noticed s b _ _

/-- Settles O18: with room the posting is `insertNew`; on a full board it is `insertFull`, whose test of the order is
that of R4. -/
theorem newEntryIsInsertedOrTheLaterIsLost : Obligations.NewEntryIsInsertedOrTheLaterIsLost := by
  intro body b s hwf hgood hb hok hnew
  obtain ⟨e, hexec, hposts⟩ := takeEntry_of_good s hwf hgood hb
  have hsid : e.sid = body.sid := hposts.1
  obtain ⟨-, hord⟩ := nodup_and_ordered_of_boardOk hok
  rw [← hsid] at hnew ⊢
  constructor
  · intro hroom
    rw [postEntry_of_room hnew hroom] at hexec
    refine ⟨insertNew s b e, e, hexec, hposts, ?_, ?_, setBoard_otherBoards s b _ _, ?_, setBoard_changes s b _ _⟩
    all_goals rw [insertNew, setBoard_get_self]
    · exact insertEntry_perm e _
    · exact insertEntry_ordered hord hnew
    · exact setBoard_noticed s b _ _
  · intro hfull
    have hlast : (s.boards.get b)[15]? = some (s.boards.get b)[15] := List.getElem?_eq_getElem (by omega)
    have hlastNew := hnew _ (List.mem_of_getElem? hlast)
    generalize (s.boards.get b)[15] = last at hlast hlastNew
    rw [postEntry_of_full hnew hlast] at hexec
    refine ⟨insertFull s b e last, e, last, hexec, hposts, hlast, insertFull_otherBoards s b e last, ?_, ?_, ?_, ?_,
      insertFull_changes s b e last⟩
    · intro hbefore
      rw [insertFull_of_last_before hbefore]
      exact ⟨rfl, rfl⟩
    · intro hbefore
      rw [insertFull_of_before_last (ordersBefore_of_not hlastNew.symm hbefore), setBoard_get_self]
      exact ⟨insertEntry_perm e _,
        insertEntry_ordered (hord.sublist (List.take_sublist 15 _)) fun x hx => hnew x (List.mem_of_mem_take hx),
        setBoard_noticed (s.onFlags (Flags.raiseOverflow b)) b _ _⟩
    · intro b'
      rw [insertFull_flags, raiseOverflow_get]
    · rw [insertFull_flags, raiseOverflow_others]

/-- Settles O19: each command is a refusal, no change, or one board replaced with its notice. -/
theorem withdrawAndClearBoardRemoveEntries : Obligations.WithdrawAndClearBoardRemoveEntries := by
  refine ⟨fun board sid s hbad => ?_, fun b sid s hsid habsent => ?_, fun b sid i s hsid hpos => ?_,
    fun board s hbad => ?_, fun b s => ?_⟩
  · exact ⟨_, by rw [exec_withdraw, takeWithdraw_bad s hbad], refuse_refusedOnly s withdrawKind .badField⟩
  · rw [exec_withdraw, takeWithdraw_absent hsid habsent]
  · exact ⟨_, by rw [exec_withdraw, takeWithdraw_present hsid hpos], setBoard_get_self s b _ _,
      setBoard_otherBoards s b _ _, setBoard_noticed s b _ _, setBoard_changes s b _ _⟩
  · exact ⟨_, by rw [exec_clearBoard, takeClearBoard_bad s hbad], refuse_refusedOnly s clearBoardKind .badField⟩
  · exact ⟨_, by rw [exec_clearBoard, takeClearBoard_good], setBoard_get_self s b _ _,
      setBoard_otherBoards s b _ _, setBoard_noticed s b _ _, setBoard_changes s b _ _⟩

end Sys2Proof.Machine.Claims

/-! Time fields: the model's derivation beside the first-case order of R38 with signed differences, the range of a
countdown, and the digits of clock times and countdowns; from these the statement on time fields. -/

namespace Sys2Proof.Machine.Claims

/-! ### The derivation, case by case (R38 to R40) -/

theorem staleAge_iff (period age : Nat) : staleAge period age = true ↔ period ≠ 0 ∧ period < age := decide_eq_true_iff

/-- A sum of seconds passed without subtracting is a signed difference reached (R40). -/
theorem delayRole_eq_delayOf (threshold : Nat) (e : Entry) : delayRole threshold e = delayOf threshold e := by
  unfold delayRole delayOf
  cases e.expected with
  | none => rfl
  | some x =>
    have hsigned : e.sched + threshold ≤ x ↔ (threshold : Int) ≤ (x : Int) - e.sched := by omega
    simp only [hsigned]

/-- The model subtracts only where the key is more than 30 s ahead, so its natural difference is the signed one (R39). -/
theorem countdown_eq_countdownOf (limit key now : Nat) : countdown limit key now = countdownOf limit key now := by
  unfold countdown countdownOf
  by_cases hdue : key ≤ now + 30
  · rw [if_pos hdue, if_pos (by omega)]
  · have hrounded : ((key : Int) - now + 30) / 60 = ((key - now + 30) / 60 : Nat) := by omega
    have hfar : ¬(key : Int) - now ≤ 30 := by omega
    simp only [if_neg hdue, if_neg hfar, hrounded, Nat.cast_lt, Int.toNat_natCast]

theorem countdown_minutes_range {limit key now m : Nat} (h : countdown limit key now = .minutes m) :
    1 ≤ m ∧ m ≤ limit := by
  unfold countdown at h
  split at h
  · nomatch h
  · dsimp only at h
    split at h
    · nomatch h
    · obtain rfl := TimeField.minutes.inj h
      omega

/-- The first case of R38 that holds, staleness tested between HELD and ARRIVING. -/
theorem derive_firstCase (st : Settings) (clock : StationClock) (e : Entry) :
    derive st clock e =
      if e.status = .cancelled then (.cancelled, .cancelled)
      else if e.status = .held then (.held, .time)
      else if st.stalePeriod ≠ 0 ∧ st.stalePeriod < e.age then (.staleClock e.sched, .stale)
      else if e.status = .arriving then (.arriving, delayOf st.delayThreshold e)
      else if clock.state = .unset ∨ clock.state = .held then (.clock (keyOf e), delayOf st.delayThreshold e)
      else (countdownOf st.countdownLimit (keyOf e) clock.value, delayOf st.delayThreshold e) := by
  simp only [← staleAge_iff, ← delayRole_eq_delayOf, ← countdown_eq_countdownOf, keyOf_eq_key]
  unfold derive
  cases e.status with
  | cancelled | held | arriving => simp
  | normal => cases clock.state <;> simp

/-- Only the last case of R38 shows a countdown. -/
theorem derive_minutes_range {st : Settings} {clock : StationClock} {e : Entry} {m : Nat}
    (h : (derive st clock e).1 = .minutes m) : 1 ≤ m ∧ m ≤ st.countdownLimit := by
  rw [derive_firstCase, ← countdown_eq_countdownOf] at h
  split_ifs at h
  exact countdown_minutes_range h

/-! ### The digits of a clock time and of a countdown (R41, R42) -/

/-- Below 100, two digits are a numeral of their number. -/
theorem twoDigits_spell {n : Nat} (h : n < 100) :
    ∃ a b, a < 10 ∧ b < 10 ∧ 10 * a + b = n ∧ twoDigits n = [a, b] :=
  ⟨n / 10 % 10, n % 10, by omega, by omega, by omega, rfl⟩

theorem clockCodes_spell (base x : Nat) :
    ∃ a b c d : Nat, a < 10 ∧ b < 10 ∧ c < 10 ∧ d < 10 ∧ 10 * a + b = x / 3600 % 24 ∧ 10 * c + d = x % 3600 / 60 ∧
      clockCodes base x = [base + a, base + b, base + 10, base + c, base + d] := by
  obtain ⟨a, b, ha, hb, hhour, hourEq⟩ := twoDigits_spell (n := x / 3600 % 24) (by omega)
  obtain ⟨c, d, hc, hd, hminute, minuteEq⟩ := twoDigits_spell (n := x % 3600 / 60) (by omega)
  refine ⟨a, b, c, d, ha, hb, hc, hd, hhour, hminute, ?_⟩
  rw [clockCodes, hourDigits, minuteDigits, hourEq, minuteEq]
  rfl

/-- One digit below 10, and two from 10 on, the first of them not 0. -/
theorem decimalDigits_spell {m : Nat} (hpos : 1 ≤ m) (hmax : m ≤ 99) :
    (∀ digit ∈ decimalDigits m, digit < 10) ∧ (decimalDigits m).foldl (fun n digit => 10 * n + digit) 0 = m ∧
      (decimalDigits m).head? ≠ some 0 := by
  unfold decimalDigits
  split
  next hone =>
    simp only [List.forall_mem_singleton, List.foldl_cons, List.foldl_nil, List.head?_cons, ne_eq, Option.some.injEq]
    omega
  next htwo =>
    simp only [List.forall_mem_cons, List.foldl_cons, List.foldl_nil, List.head?_cons, ne_eq, Option.some.injEq,
      List.not_mem_nil, false_implies, implies_true, and_true]
    omega

/-! ### The statement -/

/-- Settles O20: the first-case order with the range of its countdown, then the two spellings. -/
theorem timeFieldFollowsTheFirstCaseAndIsSpelled : Obligations.TimeFieldFollowsTheFirstCaseAndIsSpelled :=
  ⟨fun st clock e => ⟨derive_firstCase st clock e, fun _ => derive_minutes_range⟩, clockCodes_spell,
    fun _ => decimalDigits_spell⟩

end Sys2Proof.Machine.Claims

/-! Table banks: what replacing the standby bank's contents reads back as, and what each bank command does while the
standby bank is busy and while it is not; from these the statement on the bank commands. -/

namespace Sys2Proof.Machine.Claims

/-! ### The standby bank replaced (R46) -/

section
variable (t : TableStore) (bank : Bank)

@[simp] theorem setStandbyBank_active : (t.setStandbyBank bank).active = t.active := by
  unfold TableStore.setStandbyBank
  split <;> rfl

@[simp] theorem setStandbyBank_swapPending : (t.setStandbyBank bank).swapPending = t.swapPending := by
  unfold TableStore.setStandbyBank
  split <;> rfl

@[simp] theorem setStandbyBank_copyTimer : (t.setStandbyBank bank).copyTimer = t.copyTimer := by
  unfold TableStore.setStandbyBank
  split <;> rfl

@[simp] theorem setStandbyBank_standbyBank : (t.setStandbyBank bank).standbyBank = bank := by
  unfold TableStore.standbyBank
  rw [setStandbyBank_active]
  unfold TableStore.setStandbyBank
  cases t.active <;> rfl

@[simp] theorem setStandbyBank_activeBank : (t.setStandbyBank bank).activeBank = t.activeBank := by
  unfold TableStore.activeBank
  rw [setStandbyBank_active]
  unfold TableStore.setStandbyBank
  cases t.active <;> rfl

end

/-! ### The commands, busy and not (R60 to R62) -/

/-- The model's test is that of R49 and R60 to R62. -/
theorem busy_iff (s : State) : s.tables.busy = true ↔ Busy s := by
  simp only [TableStore.busy, Busy, Bool.or_eq_true, decide_eq_true_eq]

theorem exec_bankCopy (s : State) : exec .bankCopy s = .next (takeBankCopy s) := rfl

theorem exec_bankClear (s : State) : exec .bankClear s = .next (takeBankClear s) := rfl

theorem exec_bankSwap (s : State) : exec .bankSwap s = .next (takeBankSwap s) := rfl

section
variable {s : State}

theorem takeBankCopy_of_busy (h : Busy s) : takeBankCopy s = s.refuse bankCopyKind .bankBusy :=
  if_pos ((busy_iff s).mpr h)

theorem takeBankClear_of_busy (h : Busy s) : takeBankClear s = s.refuse bankClearKind .bankBusy :=
  if_pos ((busy_iff s).mpr h)

theorem takeBankSwap_of_busy (h : Busy s) : takeBankSwap s = s.refuse bankSwapKind .bankBusy :=
  if_pos ((busy_iff s).mpr h)

theorem takeBankCopy_of_not_busy (h : ¬Busy s) :
    takeBankCopy s = { s with tables := { s.tables with standby := .copying, copyTimer := some copyTime } } :=
  if_neg (mt (busy_iff s).mp h)

theorem takeBankClear_of_not_busy (h : ¬Busy s) :
    takeBankClear s = { s with tables := { s.tables.setStandbyBank Bank.empty with standby := .clean } } :=
  if_neg (mt (busy_iff s).mp h)

theorem takeBankSwap_of_faulted (h : ¬Busy s) (hfaulted : s.tables.standby = .faulted) :
    takeBankSwap s = s.refuse bankSwapKind .bankFaulted :=
  (if_neg (mt (busy_iff s).mp h)).trans (if_pos hfaulted)

theorem takeBankSwap_of_not_busy (h : ¬Busy s) (hsound : s.tables.standby ≠ .faulted) :
    takeBankSwap s = { s with tables := { s.tables with swapPending := true } } :=
  (if_neg (mt (busy_iff s).mp h)).trans (if_neg hsound)

theorem exec_bankCopyComplete_of_running {time : Nat} (h : s.tables.copyTimer = some time) :
    exec .bankCopyComplete s = .next { s with tables := s.tables.completeCopy } :=
  congrArg Host.Outcome.next (if_pos (Option.isSome_iff_exists.mpr ⟨time, h⟩))

end

/-! ### The statement -/

/-- Settles O40: while busy each command is a refusal; otherwise each is a new Table Store, which for BANK_CLEAR and the
completion of a copy is the standby bank replaced. -/
theorem bankCommandsWriteTheStandbyBank : Obligations.BankCommandsWriteTheStandbyBank := by
  refine ⟨fun s hbusy => ⟨?_, ?_, ?_⟩, fun s hfree => ⟨?_, ?_, fun hfaulted => ?_, fun hsound => ?_⟩,
    fun time s hrunning => ?_⟩
  · exact ⟨_, by rw [exec_bankCopy, takeBankCopy_of_busy hbusy], refuse_refusedOnly s bankCopyKind .bankBusy⟩
  · exact ⟨_, by rw [exec_bankClear, takeBankClear_of_busy hbusy], refuse_refusedOnly s bankClearKind .bankBusy⟩
  · exact ⟨_, by rw [exec_bankSwap, takeBankSwap_of_busy hbusy], refuse_refusedOnly s bankSwapKind .bankBusy⟩
  · rw [exec_bankCopy, takeBankCopy_of_not_busy hfree, copyTime]
  · exact ⟨_, (exec_bankClear s).trans (congrArg _ (takeBankClear_of_not_busy hfree)),
      setStandbyBank_standbyBank s.tables Bank.empty, rfl, setStandbyBank_activeBank s.tables Bank.empty,
      setStandbyBank_active s.tables Bank.empty, setStandbyBank_swapPending s.tables Bank.empty,
      setStandbyBank_copyTimer s.tables Bank.empty, setTables_changes s _⟩
  · exact ⟨_, by rw [exec_bankSwap, takeBankSwap_of_faulted hfree hfaulted],
      refuse_refusedOnly s bankSwapKind .bankFaulted⟩
  · rw [exec_bankSwap, takeBankSwap_of_not_busy hfree hsound]
  · exact ⟨_, exec_bankCopyComplete_of_running hrunning,
      setStandbyBank_standbyBank s.tables s.tables.activeBank, setStandbyBank_activeBank s.tables s.tables.activeBank,
      rfl, rfl, setStandbyBank_active s.tables s.tables.activeBank,
      setStandbyBank_swapPending s.tables s.tables.activeBank, setTables_changes s _⟩

end Sys2Proof.Machine.Claims

/-! Light and brightness: division to the nearest with a half rounded up, the points of a rising curve that lie before a
light, and the level between two neighbouring points; from these the statement on the curve and the scaling. -/

namespace Sys2Proof.Machine.Claims

/-! ### Rounding to the nearest (R159, R162) -/

/-- `k` is the whole number nearest `n / d`, a half rounded up: `k - 1/2 ≤ n / d < k + 1/2`. -/
def NearestHalfUp (n d k : Nat) : Prop := 2 * (d * k) ≤ 2 * n + d ∧ 2 * n < 2 * (d * k) + d

/-- Adding half the divisor before a division rounds to the nearest. -/
theorem nearestHalfUp_div (n : Nat) {d : Nat} (hd : 0 < d) : NearestHalfUp n d ((n + d / 2) / d) := by
  have parts := Nat.div_add_mod (n + d / 2) d
  have rest := Nat.mod_lt (n + d / 2) hd
  constructor <;> omega

theorem nearestHalfUp_mul (k : Nat) {d : Nat} (hd : 0 < d) : NearestHalfUp (d * k) d k := by
  constructor <;> omega

/-- What is at most a whole number rounds to at most it. -/
theorem NearestHalfUp.le_of_le_mul {n d k w : Nat} (h : NearestHalfUp n d k) (hd : 0 < d) (hn : n ≤ d * w) : k ≤ w := by
  by_contra beyond
  have next : d * (w + 1) ≤ d * k := Nat.mul_le_mul_left d (by omega)
  rw [Nat.mul_succ] at next
  have atMost := h.1
  omega

/-! ### Scaling a component (R162) -/

theorem scaleComponent_nearest (level c : Nat) : NearestHalfUp (c * level) 255 (scaleComponent level c) :=
  nearestHalfUp_div (c * level) (by decide)

theorem scaleComponent_le {level c : Nat} (hlevel : level ≤ 255) (hc : c ≤ 255) : scaleComponent level c ≤ 255 :=
  (scaleComponent_nearest level c).le_of_le_mul (by decide) (Nat.mul_le_mul hc hlevel)

theorem scaleComponent_full (c : Nat) : scaleComponent 255 c = c := by
  unfold scaleComponent
  omega

theorem scaleComponent_dark (c : Nat) : scaleComponent 0 c = 0 := by simp [scaleComponent]

/-! ### The curve point by point (R56, R159) -/

theorem risingCurve_cons_cons (p q : Nat × Nat) (rest : List (Nat × Nat)) :
    risingCurve (p :: q :: rest) = true ↔ p.1 < q.1 ∧ p.2 ≤ q.2 ∧ risingCurve (q :: rest) = true := by
  simp only [risingCurve, Bool.and_eq_true, decide_eq_true_eq, and_assoc]

theorem risingCurve_tail {p : Nat × Nat} {rest : List (Nat × Nat)} (h : risingCurve (p :: rest) = true) :
    risingCurve rest = true := by
  cases rest with
  | nil => rfl
  | cons q rest => exact ((risingCurve_cons_cons p q rest).mp h).2.2

theorem risingCurve_drop {points : List (Nat × Nat)} (h : risingCurve points = true) (i : Nat) :
    risingCurve (points.drop i) = true := by
  induction i generalizing points with
  | zero => exact h
  | succ i ih =>
    cases points with
    | nil => rfl
    | cons p rest => exact ih (risingCurve_tail h)

theorem risingCurve_head_le {p x : Nat × Nat} {rest : List (Nat × Nat)} (h : risingCurve (p :: rest) = true)
    (hx : x ∈ p :: rest) : p.1 ≤ x.1 := by
  induction rest generalizing p with
  | nil => rw [List.mem_singleton.mp hx]
  | cons q rest ih =>
    obtain ⟨ascends, -, hrest⟩ := (risingCurve_cons_cons p q rest).mp h
    rcases List.mem_cons.mp hx with rfl | hx
    · exact le_rfl
    · exact ascends.le.trans (ih hrest hx)

theorem curveLevel_of_le_head {p : Nat × Nat} {rest : List (Nat × Nat)} {light : Nat} (h : light ≤ p.1) :
    curveLevel (p :: rest) light = p.2 := by
  cases rest with
  | nil => rfl
  | cons q rest => exact if_pos h

section
variable {p q : Nat × Nat} {light : Nat}

theorem curveLevel_between (rest : List (Nat × Nat)) (hp : p.1 < light) (hq : light < q.1) :
    curveLevel (p :: q :: rest) light =
      p.2 + ((light - p.1) * (q.2 - p.2) + (q.1 - p.1) / 2) / (q.1 - p.1) :=
  (if_neg hp.not_ge).trans (if_pos hq)

theorem curveLevel_of_next_le (rest : List (Nat × Nat)) (ascends : p.1 < q.1) (hq : q.1 ≤ light) :
    curveLevel (p :: q :: rest) light = curveLevel (q :: rest) light :=
  (if_neg (ascends.trans_le hq).not_ge).trans (if_neg hq.not_gt)

end

/-- Points before one that the light has reached do not matter. -/
theorem curveLevel_drop {points : List (Nat × Nat)} {i light : Nat} {x : Nat × Nat} (h : risingCurve points = true)
    (hx : points[i]? = some x) (hlight : x.1 ≤ light) : curveLevel points light = curveLevel (points.drop i) light := by
  induction i generalizing points with
  | zero => rfl
  | succ i ih =>
    match points, h, hx with
    | p :: q :: rest, h, hx =>
      obtain ⟨ascends, -, hrest⟩ := (risingCurve_cons_cons p q rest).mp h
      have reached : q.1 ≤ light := (risingCurve_head_le hrest (List.mem_of_getElem? hx)).trans hlight
      exact (curveLevel_of_next_le rest ascends reached).trans (ih hrest hx)

/-! ### The straight line between two neighbouring points (R159) -/

/-- A level between those of two points, and the nearest to their straight line at a light, a half rounded up. -/
def OnLine (p q : Nat × Nat) (light level : Nat) : Prop :=
  p.2 ≤ level ∧ level ≤ q.2 ∧
    2 * (q.1 - p.1) * (level - p.2) ≤ 2 * (light - p.1) * (q.2 - p.2) + (q.1 - p.1) ∧
    2 * (light - p.1) * (q.2 - p.2) < 2 * (q.1 - p.1) * (level - p.2) + (q.1 - p.1)

section
variable {p q : Nat × Nat} {light : Nat}

theorem onLine_of_nearest {rise : Nat} (ascends : p.1 < q.1) (rises : p.2 ≤ q.2) (hq : light ≤ q.1)
    (h : NearestHalfUp ((light - p.1) * (q.2 - p.2)) (q.1 - p.1) rise) : OnLine p q light (p.2 + rise) := by
  have within : rise ≤ q.2 - p.2 :=
    h.le_of_le_mul (Nat.sub_pos_of_lt ascends) (Nat.mul_le_mul_right _ (Nat.sub_le_sub_right hq _))
  unfold OnLine
  rw [Nat.add_sub_cancel_left, Nat.mul_assoc, Nat.mul_assoc]
  exact ⟨Nat.le_add_right _ _, by omega, h⟩

/-- At either point's own light the level is that point's; strictly between, the division rounds to the nearest. -/
theorem curveLevel_onLine {rest : List (Nat × Nat)} (h : risingCurve (p :: q :: rest) = true) (hp : p.1 ≤ light)
    (hq : light ≤ q.1) : OnLine p q light (curveLevel (p :: q :: rest) light) := by
  obtain ⟨ascends, rises, -⟩ := (risingCurve_cons_cons p q rest).mp h
  have apart : 0 < q.1 - p.1 := Nat.sub_pos_of_lt ascends
  rcases hp.eq_or_lt with rfl | hp
  · rw [curveLevel_of_le_head le_rfl]
    exact onLine_of_nearest ascends rises hq (by simpa using nearestHalfUp_mul 0 apart)
  rcases hq.eq_or_lt with rfl | hq
  · have atNext := onLine_of_nearest ascends rises le_rfl (nearestHalfUp_mul (q.2 - p.2) apart)
    rwa [Nat.add_sub_cancel' rises, ← curveLevel_of_le_head le_rfl, ← curveLevel_of_next_le rest ascends le_rfl]
      at atNext
  · rw [curveLevel_between rest hp hq]
    exact onLine_of_nearest ascends rises hq.le (nearestHalfUp_div _ apart)

end

/-- The level lies between levels of the curve, so it keeps any bound they keep. -/
theorem curveLevel_le {points : List (Nat × Nat)} {bound : Nat} (light : Nat) (h : risingCurve points = true)
    (hbound : ∀ p ∈ points, p.2 ≤ bound) : curveLevel points light ≤ bound := by
  induction points with
  | nil => exact Nat.zero_le bound
  | cons p rest ih =>
    rcases le_total light p.1 with hp | hp
    · rw [curveLevel_of_le_head hp]
      exact hbound p List.mem_cons_self
    cases rest with
    | nil => exact hbound p List.mem_cons_self
    | cons q rest =>
      obtain ⟨ascends, -, hrest⟩ := (risingCurve_cons_cons p q rest).mp h
      rcases le_total light q.1 with hq | hq
      · obtain ⟨-, belowNext, -⟩ := curveLevel_onLine h hp hq
        exact belowNext.trans (hbound q (by simp))
      · rw [curveLevel_of_next_le rest ascends hq]
        exact ih hrest fun x hx => hbound x (List.mem_cons_of_mem p hx)

/-! ### The curve as a whole (R159) -/

section
variable {points : List (Nat × Nat)} {light : Nat}

theorem curveLevel_first {first : Nat × Nat} (hfirst : points.head? = some first) (hlight : light ≤ first.1) :
    curveLevel points light = first.2 := by
  obtain ⟨rest, rfl⟩ := List.head?_eq_some_iff.mp hfirst
  exact curveLevel_of_le_head hlight

theorem curveLevel_last {last : Nat × Nat} (h : risingCurve points = true) (hlast : points.getLast? = some last)
    (hlight : last.1 ≤ light) : curveLevel points light = last.2 := by
  obtain ⟨before, rfl⟩ := List.getLast?_eq_some_iff.mp hlast
  rw [curveLevel_drop h List.getElem?_concat_length hlight, List.drop_left]
  rfl

theorem curveLevel_neighbours {i : Nat} {p q : Nat × Nat} (h : risingCurve points = true) (hp : points[i]? = some p)
    (hq : points[i + 1]? = some q) (above : p.1 ≤ light) (below : light ≤ q.1) :
    OnLine p q light (curveLevel points light) := by
  have fromHere : points.drop i = p :: q :: points.drop (i + 2) := by
    rw [List.drop_eq_getElem?_toList_append, hp, List.drop_eq_getElem?_toList_append, hq]
    rfl
  rw [curveLevel_drop h hp above, fromHere]
  exact curveLevel_onLine (fromHere ▸ risingCurve_drop h i) above below

end

/-! ### The statement -/

/-- Settles O51: the curve clause by clause on the points the light has reached, then the scaling as a division by 255
to the nearest. -/
theorem brightnessFollowsTheCurve : Obligations.BrightnessFollowsTheCurve := by
  refine ⟨fun points light ⟨_, _, rising, bytes⟩ => ⟨fun first => curveLevel_first, fun last => curveLevel_last rising,
    fun i p q => curveLevel_neighbours rising, curveLevel_le light rising fun p hp => (bytes p hp).2⟩,
    fun level c hlevel hc => ?_⟩
  obtain ⟨notAbove, notBelow⟩ := scaleComponent_nearest level c
  exact ⟨scaleComponent_le hlevel hc, scaleComponent_full c, scaleComponent_dark c, notBelow.le, notAbove⟩

end Sys2Proof.Machine.Claims

/-! The frame of every command: what each of the 75 can change, command by command, from the frames of the shared
operations; from it the statement that every command completes in its frame. -/

namespace Sys2Proof.Machine

open Claims

/-! ### Frames of operations that no shared lemma names -/

theorem execStalePeriodPassed_changes (b : Fin 8) (sid : Nat) (s : State) :
    ∃ t, exec (.stalePeriodPassed b sid) s = .next t ∧ OnlyChanges boardParts s t :=
  ⟨_, rfl, setBoard_changes s b _ _⟩

/-- A condition that leaves the state as it is keeps any frame. -/
theorem OnlyChanges.ite {ps : List Part} {s t : State} (c : Prop) [Decidable c] (h : OnlyChanges ps s t) :
    OnlyChanges ps s (if c then t else s) := by
  split
  · exact h
  · exact OnlyChanges.refl ps s

theorem completeCopy_changes (s : State) :
    OnlyChanges [.tables] s (if s.tables.copyTimer.isSome then { s with tables := s.tables.completeCopy } else s) :=
  OnlyChanges.ite _ (setTables_changes s _)

theorem execMessageDwellExpiry_changes (ref : MsgZone) (s : State) :
    ∃ t, exec (.messageDwellExpiry ref) s = .next t ∧ OnlyChanges [.runtimes, .synthetic, .dirty] s t := by
  refine ⟨_, rfl, ?_⟩
  split
  · exact OnlyChanges.ite _ (onDisplay_changes (onMessage_changes ref _) s)
  · exact OnlyChanges.refl _ s

theorem execPanelFault_changes (p : Fin 16) (s : State) :
    ∃ t, exec (.panelFault p) s = .next t ∧ OnlyChanges [.dirty, .cursors, .panels, .bus .busA, .bus .busB] s t := by
  refine ⟨_, rfl, ?_⟩
  split
  next b _ => exact (takeOutcome_changes b false s).mono (by cases b <;> decide)
  next => exact OnlyChanges.refl _ s

theorem sendForward_changes (s : State) (f : TrunkPort → List (List Byte)) :
    OnlyChanges [.forward] s (s.onTrunk fun t => { t with forward := f t }.sendForward) := fun part hp => by
  cases part with
  | receiver lane => cases lane <;> rfl
  | _ => simp_all [State.agrees]

theorem execReturnOutCellSent_changes (s : State) :
    ∃ t, exec .returnOutCellSent s = .next t ∧ OnlyChanges [.returnLane] s t := by
  refine ⟨_, rfl, fun part hp => ?_⟩
  rw [State.onTrunk]
  split
  · exact OnlyChanges.refl [.returnLane] s part hp
  · cases part <;> simp_all [State.agrees, TrunkPort.receiver]
  · cases part <;> simp_all [State.agrees, TrunkPort.receiver]

theorem lightSample_changes (s0 s1 s2 s3 : Byte) (s : State) :
    ∃ t, exec (.lightSample s0 s1 s2 s3) s = .next t ∧ OnlyChanges [.sensors, .groups, .panels] s t :=
  ⟨_, rfl, (((takeSample_changes 0 _ s).trans (takeSample_changes 1 _ _)).trans (takeSample_changes 2 _ _)).trans
    (takeSample_changes 3 _ _)⟩

theorem execCellAbandoned_changes (lane : Lane) (ch : LineChar) (s : State) :
    ∃ t, exec (.cellAbandoned lane ch) s = .next t ∧ OnlyChanges [.receiver lane, .trunkCounts] s t := by
  refine ⟨_, rfl, ?_⟩
  split
  · exact abandonCell_changes lane _ s
  all_goals exact OnlyChanges.refl _ s

/-- An external reset reaches every part but the pins, the free-byte counter and the queue. -/
theorem takeExternalReset_changes (s : State) : OnlyChanges (reach .externalReset) s (takeExternalReset s) :=
  fun part hp => by
    cases part with
    | bus b => cases b <;> exact absurd (by decide) hp
    | receiver lane => cases lane <;> exact absurd (by decide) hp
    | pins => rfl
    | freeCount => rfl
    | pending => rfl
    | _ => exact absurd (by decide) hp

theorem takeRestart_reach (broadcast : Bool) (s : State) :
    OnlyChanges (reach (.restart broadcast)) s (takeRestart broadcast s) := fun part hp => by
  cases part with
  | bus b => cases broadcast <;> cases b <;> exact absurd (by decide) hp
  | receiver lane => cases broadcast <;> cases lane <;> exact absurd (by decide) hp
  | settings | pins | freeCount | pending => rfl
  | _ => cases broadcast <;> exact absurd (by decide) hp

/-- A SET of a contact's setting that is judged at once. -/
theorem judgedSetting_changes (n : Fin 4) (s : State) (f : Settings → Settings) (v w : Nat) :
    OnlyChanges ([.settings, .flags] ++ alertParts) s (judgeLevel n ((s.onSettings f).noteClamp v w)) :=
  ((setting_changes s f v w).mono (by decide)).trans ((judgeLevel_changes n _).mono (by decide))

/-- A SET that derives every board again. -/
theorem rederivedSetting_changes (s : State) (f : Settings → Settings) (v w : Nat) :
    OnlyChanges ([.settings, .flags] ++ boardParts) s (rederiveAll ((s.onSettings f).noteClamp v w)) :=
  ((setting_changes s f v w).mono (by decide)).trans ((rederiveAll_changes _).mono (by decide))

/-! ### Frames of QUERYs by their kind -/

theorem takeQueryBoard_changes (item : Nat) (s : State) :
    OnlyChanges [.returnLane, .flags, .refusal, .freeCount] s (takeQueryBoard item s) := by
  unfold takeQueryBoard
  split
  · exact ((useFree_changes s _).mono (by decide)).trans
      (OnlyChanges.foldl (fun s c => (joinOwn_changes s c).mono (by decide)) _ _)
  · exact (refuse_changes s _ _).mono (by decide)

theorem takeQueryPanel_changes (item : Nat) (s : State) :
    OnlyChanges [.returnLane, .flags, .refusal, .freeCount] s (takeQueryPanel item s) := by
  unfold takeQueryPanel
  split
  · exact ((useFree_changes s _).mono (by decide)).trans ((answer_changes _ _ _ _).mono (by decide))
  · exact (refuse_changes s _ _).mono (by decide)

/-- A QUERY for item 0 alone is answered, or refused. -/
theorem answerOrRefuse_changes (item kind : Nat) (contents : List Byte) (s : State) :
    OnlyChanges [.returnLane, .flags, .refusal] s
      (if item = 0 then answer kind 0 contents s else s.refuse queryKind .badField) := by
  split
  · exact (answer_changes _ _ _ s).mono (by decide)
  · exact (refuse_changes s _ _).mono (by decide)

/-! ### Commands by their numbers -/

/-- Setting numbers from 40 on belong to no contact (R186). -/
theorem contactOf_beyond {number : Nat} (h : 40 ≤ number) : finOf? 4 ((number - 16) / 6) = none :=
  finOf?_eq_none.mpr (by omega)

/-- A number that names no setting is refused (R178). -/
theorem takeSet_unnamed {number : Nat} (h : namesSetting number = false) (v : Nat) (s : State) :
    takeSet number v s = s.refuse setKind .badIndex := by
  simp only [namesSetting, Bool.or_eq_false_iff, decide_eq_false_iff_not, Bool.and_eq_false_iff] at h
  obtain ⟨hlow, hhigh⟩ := h
  have hbeyond (hcontact : ¬number < 16) : 40 ≤ number := by omega
  unfold takeSet
  split
  case h_15 =>
    split
    · rfl
    next hcontact => rw [contactOf_beyond (hbeyond hcontact)]
  all_goals exact absurd (by decide) hlow

/-- A report kind above 5 is refused (R180). -/
theorem takeQuery_unknown {kind : Nat} (h : 5 < kind) (item : Nat) (s : State) :
    takeQuery kind item s = s.refuse queryKind .badField := by
  match kind with
  | 0 | 1 | 2 | 3 | 4 | 5 => omega
  | k + 6 => rfl

/-! ### Every command -/

/-- Every elementary command completes in its frame. -/
theorem elementary_completes (c : Instr) (s : State) (h : elementary c = true) :
    ∃ t, exec c s = .next t ∧ OnlyChanges (reach c) s t := by
  cases c with
  | trunkCell | returnCell | characterArrival | cellAbandoned | setUnknownSetting | queryUnknownKind => cases h
  | entry body => exact ⟨_, rfl, takeEntry_changes body s⟩
  | withdraw board sid => exact ⟨_, rfl, takeWithdraw_changes board sid s⟩
  | clearBoard board => exact ⟨_, rfl, takeClearBoard_changes board s⟩
  | time second => exact ⟨_, rfl, takeTime_changes second s⟩
  | minutePulse => exact ⟨_, rfl, takePulse_changes s⟩
  | timebaseSecond => exact ⟨_, rfl, takeSecond_changes s⟩
  | stalePeriodPassed board sid => exact execStalePeriodPassed_changes board sid s
  | clockDrifting => exact ⟨_, rfl, OnlyChanges.ite _ (tickClock_changes s)⟩
  | silent => exact ⟨_, rfl, OnlyChanges.ite _ (tickSilence_changes s)⟩
  | languageFlip =>
    exact ⟨_, rfl, OnlyChanges.ite _ (onDisplay_changes (fun sc d => tickLanguage_changes _ sc d) s)⟩
  | swapApplied => exact ⟨_, rfl, tickSwap_changes s⟩
  | messageDurationExpiry slot => exact ⟨_, rfl, OnlyChanges.ite _ (tickSlot_changes slot s)⟩
  | pageTurn zone => exact ⟨_, rfl, OnlyChanges.ite _ (onDisplay_changes (turnPage_changes zone.val) s)⟩
  | messageDwellExpiry ref => exact execMessageDwellExpiry_changes ref s
  | tileStep zone => exact ⟨_, rfl, OnlyChanges.ite _ (onDisplay_changes (stepTile_changes zone.val) s)⟩
  | scrollStep ref => exact ⟨_, rfl, onDisplay_changes (onMessage_changes ref _) s⟩
  | message body => exact ⟨_, rfl, takeMessage_changes body s⟩
  | messageEnd slot => exact ⟨_, rfl, takeMessageEnd_changes slot s⟩
  | contactChange contact level => exact ⟨_, rfl, onContact_changes s contact _⟩
  | filterExpiry contact => exact ⟨_, rfl, expireFilter_changes contact s⟩
  | settlingExpiry contact => exact ⟨_, rfl, expireSettling_changes contact s⟩
  | ackAlert contact => exact ⟨_, rfl, takeAckAlert_changes contact s⟩
  | mode value => exact ⟨_, rfl, takeMode_changes value s⟩
  | tableLoad table index record => exact ⟨_, rfl, takeTableLoad_changes table index record s⟩
  | bankCopy => exact ⟨_, rfl, takeBankCopy_changes s⟩
  | bankCopyComplete => exact ⟨_, rfl, completeCopy_changes s⟩
  | bankClear => exact ⟨_, rfl, takeBankClear_changes s⟩
  | bankSwap => exact ⟨_, rfl, takeBankSwap_changes s⟩
  | setDepartureHold v | setCancelHold v | setLanguageDwell v | setSilenceLimit v | setRefreshCycle v
  | setBusRate b v | setHoldLimit v | setContactFilter n v | setContactAlertString n v =>
    exact ⟨_, rfl, setting_changes s _ v _⟩
  | setStalePeriod v | setCountdownLimit v | setDelayThreshold v => exact ⟨_, rfl, rederivedSetting_changes s _ v _⟩
  | setBusEnable b v => exact ⟨_, rfl, setBusEnable_changes b v s⟩
  | setSensorFallbackLevel v =>
    exact ⟨_, rfl, ((setting_changes s _ v _).mono (by simp [reach])).trans
      ((refallAll_changes _).mono (by simp [reach]))⟩
  | setContactEnable n v => exact ⟨_, rfl, setContactEnable_changes n v s⟩
  | setContactMode n v | setContactPolarity n v => exact ⟨_, rfl, judgedSetting_changes n s _ v _⟩
  | setContactPanelMask n v => exact ⟨_, rfl, onSettings_changes s _⟩
  | queryDevice item => exact ⟨_, rfl, takeQuery_changes 0 item s⟩
  | queryBoard item => exact ⟨_, rfl, takeQueryBoard_changes item s⟩
  | queryPanel item => exact ⟨_, rfl, takeQueryPanel_changes item s⟩
  | queryBank item | queryInputs item | querySettings item => exact ⟨_, rfl, answerOrRefuse_changes item _ _ s⟩
  | restart broadcast => exact ⟨_, rfl, takeRestart_reach broadcast s⟩
  | externalReset => exact ⟨_, rfl, takeExternalReset_changes s⟩
  | trunkOutCellSent => exact ⟨_, rfl, sendForward_changes s _⟩
  | returnOutCellSent => exact execReturnOutCellSent_changes s
  | lightSample s0 s1 s2 s3 => exact lightSample_changes s0 s1 s2 s3 s
  | sensorFailed n => exact ⟨_, rfl, OnlyChanges.ite _ (takeSample_changes n _ s)⟩
  | sensorRestored n v => exact ⟨_, rfl, OnlyChanges.ite _ (takeSample_changes n _ s)⟩
  | frameChoice b => exact ⟨_, rfl, chooseFrame_changes b s⟩
  | frameSent b => exact ⟨_, rfl, OnlyChanges.ite _ (onBus_changes s b _)⟩
  | panelAnswer b data marker => exact ⟨_, rfl, OnlyChanges.ite _ (takeOutcome_changes b _ s)⟩
  | panelFault p => exact execPanelFault_changes p s
  | answerTimeout b | holdTimeout b => exact ⟨_, rfl, OnlyChanges.ite _ (takeOutcome_changes b false s)⟩
  | clockLineLow b =>
    refine ⟨_, rfl, ?_⟩
    split
    · exact OnlyChanges.refl _ s
    · exact (pullClock_changes b s).mono (by simp [reach, outcomeParts])
  | clockLineRelease b =>
    exact ⟨_, rfl, OnlyChanges.ite _ ((releaseClock_changes b s).mono (by simp [reach]))⟩
  | classGapExpiry p => exact ⟨_, rfl, onPanel_changes s.disp p _ s⟩
  | probeDue p => exact ⟨_, rfl, OnlyChanges.ite _ (onPanel_changes s.disp p _ s)⟩

/-- Settles O2, command by command: each is one of the shared operations, whose frame is known. -/
theorem everyCommandCompletesInItsFrame : Obligations.EveryCommandCompletesInItsFrame := by
  intro c s hwf
  cases c with
  | trunkCell cell => exact ⟨_, rfl, arriveCell_changes .trunkIn cell s⟩
  | returnCell cell => exact ⟨_, rfl, arriveCell_changes .returnIn cell s⟩
  | characterArrival lane ch => exact ⟨_, rfl, arriveChar_changes lane ch s⟩
  | cellAbandoned lane ch => exact execCellAbandoned_changes lane ch s
  | setUnknownSetting number v =>
    have hnumber : namesSetting number = false := by simp only [Instr.wf, Bool.and_eq_true, Bool.not_eq_true'] at hwf; exact hwf.2
    refine ⟨_, rfl, ?_⟩
    rw [takeSet_unnamed hnumber]
    exact refuse_changes s _ _
  | queryUnknownKind kind item =>
    have hkind : 5 < kind := by simp only [Instr.wf, Bool.and_eq_true, decide_eq_true_eq] at hwf; exact hwf.2
    refine ⟨_, rfl, ?_⟩
    rw [takeQuery_unknown hkind]
    exact refuse_changes s _ _
  | _ => exact elementary_completes _ s rfl

/-- Settles O1: a step is exec of the front command by its definition. -/
theorem stepTakesTheFrontCommand : Obligations.StepTakesTheFrontCommand := by
  refine ⟨fun c q s hq => ?_, fun s hq => ?_⟩ <;> simp only [step, hq]

end Sys2Proof.Machine

/-! How an invariant of some parts of the state is kept: commands and operations that reach none of those parts keep it by
their frames, so that only the commands that touch them are looked at; and the second, stage by stage. -/

namespace Sys2Proof.Machine

open Claims

/-! ### Commands that touch what a property reads -/

/-- Whether a command can change one of some parts. -/
def touches (parts : List Part) (c : Instr) : Bool := parts.any fun part => decide (part ∈ reach c)

theorem notMem_reach_of_touches {parts : List Part} {c : Instr} (h : touches parts c = false) :
    ∀ part ∈ parts, part ∉ reach c := fun part hp => by
  simpa using List.any_eq_false.mp h part hp

/-- An elementary command that touches nothing a property reads keeps it. -/
theorem DependsOn.untouched {parts : List Part} {P : State → Prop} (h : DependsOn parts P) {c : Instr} {s t : State}
    (hc : elementary c = true) (htouch : touches parts c = false) (hexec : exec c s = .next t) (hs : P s) : P t := by
  obtain ⟨u, hu, hframe⟩ := elementary_completes c s hc
  obtain rfl := Host.Outcome.next.inj (hu.symm.trans hexec)
  exact h.kept hframe (notMem_reach_of_touches htouch) hs

/-- To be kept by the elementary commands, a property is to be kept by those that touch what it reads. -/
theorem DependsOn.elementaryKept {parts : List Part} {P : State → Prop} (h : DependsOn parts P)
    (htouched : ∀ c s t, touches parts c = true → elementary c = true → exec c s = .next t → P s → P t) :
    ElementaryKept P := fun c s t hc hexec hs => by
  cases htouch : touches parts c with
  | false => exact h.untouched hc htouch hexec hs
  | true => exact htouched c s t htouch hc hexec hs

theorem DependsOn.and {ps qs : List Part} {P Q : State → Prop} (hP : DependsOn ps P) (hQ : DependsOn qs Q) :
    DependsOn (ps ++ qs) fun s => P s ∧ Q s := fun s t hagree h =>
  ⟨hP s t (fun part hp => hagree part (List.mem_append_left _ hp)) h.1,
    hQ s t (fun part hp => hagree part (List.mem_append_right _ hp)) h.2⟩

/-! ### The Trunk Port's own operations -/

/-- What a property is to be kept by, beside the elementary commands, whatever the receivers hold. -/
structure PortKept (P : State → Prop) : Prop where
  refuse : ∀ s kind reason, P s → P (s.refuse kind reason)
  setReceiver : ∀ s lane rx, P s → P (s.onTrunk fun t => t.setReceiver lane rx)
  abandon : ∀ s lane rx, P s → P (abandonCell lane rx s)
  checkFailure : ∀ s, P s → P (countCheckFailure s)
  hear : ∀ s, P s → P (hearGood s)
  forward : ∀ s cell, P s → P (forwardCell cell s)
  judgeReturn : ∀ s cell, P s → P (judgeReturn cell s)

/-- The parts that the Trunk Port's operations on characters and queues reach, the hearing of a good cell aside. -/
def portParts : List Part :=
  [.refusal, .receiver .trunkIn, .receiver .returnIn, .trunkCounts, .forward, .returnLane, .flags]

/-- A property that reads nothing of the Trunk Port's queues and receivers is kept by its operations where it is kept at
the hearing of a good cell. -/
theorem DependsOn.portKept {parts : List Part} {P : State → Prop} (h : DependsOn parts P)
    (hparts : ∀ part ∈ parts, part ∉ portParts) (hear : ∀ s, P s → P (hearGood s)) : PortKept P where
  refuse s kind reason := h.kept ((refuse_changes s kind reason).mono (by decide)) hparts
  setReceiver s lane rx := h.kept ((setReceiver_changes s lane rx).mono (by cases lane <;> decide)) hparts
  abandon s lane rx := h.kept ((abandonCell_changes lane rx s).mono (by cases lane <;> decide)) hparts
  checkFailure s := h.kept ((countCheckFailure_changes s).mono (by decide)) hparts
  hear := hear
  forward s cell := h.kept ((forwardCell_changes cell s).mono (by decide)) hparts
  judgeReturn s cell := h.kept ((judgeReturn_changes cell s).mono (by decide)) hparts

theorem PortKept.trunkKept {P : State → Prop} (h : PortKept P) : TrunkKept P where
  refuse := h.refuse
  setReceiver s lane rx _ := h.setReceiver s lane rx
  abandon s lane rx _ := h.abandon s lane rx
  checkFailure := h.checkFailure
  hear := h.hear
  forward s cell _ := h.forward s cell
  judgeReturn s cell _ := h.judgeReturn s cell

theorem PortKept.judgeTrunk {P : State → Prop} (h : PortKept P) (hc : ElementaryKept P) (cell : List Byte) {s : State}
    (hs : P s) : P (judgeTrunk cell s) := by
  have heard := h.hear s hs
  have passed := h.forward _ cell heard
  have taken {u : State} (hu : P u) := takeCell_keeps h.trunkKept hc cell hu
  unfold Machine.judgeTrunk
  dsimp only
  split
  · exact h.checkFailure s hs
  · split
    · split
      · exact taken passed
      · exact taken heard
    · split
      · exact passed
      · exact heard

theorem PortKept.completeCell {P : State → Prop} (h : PortKept P) (hc : ElementaryKept P) (lane : Lane)
    (cell : List Byte) {s : State} (hs : P s) : P (completeCell lane cell s) := by
  have hunting := h.setReceiver s lane .hunt hs
  cases lane with
  | trunkIn => exact h.judgeTrunk hc cell hunting
  | returnIn => exact h.judgeReturn _ cell hunting

theorem PortKept.arriveChar {P : State → Prop} (h : PortKept P) (hc : ElementaryKept P) (lane : Lane) (ch : LineChar)
    {s : State} (hs : P s) : P (arriveChar lane ch s) := by
  unfold Machine.arriveChar
  split
  · exact hs
  · exact h.setReceiver s lane _ hs
  · exact h.abandon s lane _ hs
  · exact h.completeCell hc lane _ hs

/-- A property that the elementary commands and the Trunk Port's operations keep is kept by every command. -/
theorem PortKept.exec {P : State → Prop} (h : PortKept P) (hc : ElementaryKept P) (c : Instr) {s t : State}
    (hexec : exec c s = .next t) (hs : P s) : P t := by
  cases c with
  | trunkCell cell =>
    obtain rfl := Host.Outcome.next.inj hexec
    exact arriveCell_keeps h.trunkKept hc .trunkIn cell hs
  | returnCell cell =>
    obtain rfl := Host.Outcome.next.inj hexec
    exact arriveCell_keeps h.trunkKept hc .returnIn cell hs
  | characterArrival lane ch =>
    obtain rfl := Host.Outcome.next.inj hexec
    exact h.arriveChar hc lane ch hs
  | cellAbandoned lane ch =>
    obtain rfl := Host.Outcome.next.inj hexec
    split
    · exact h.abandon s lane _ hs
    all_goals exact hs
  | setUnknownSetting number v =>
    obtain rfl := Host.Outcome.next.inj hexec
    exact takeSet_keeps h.trunkKept hc number v hs
  | queryUnknownKind kind item =>
    obtain rfl := Host.Outcome.next.inj hexec
    exact takeQuery_keeps h.trunkKept hc kind item hs
  | _ => exact hc _ s t rfl hexec hs

/-- The same of every step, for a property that does not read the queue of commands. -/
theorem PortKept.step {P : State → Prop} (h : PortKept P) (hc : ElementaryKept P)
    (hq : ∀ s q, P s → P (s.withPending q)) {s t : State} (hstep : step s = .next t) (hs : P s) : P t := by
  unfold Machine.step at hstep
  split at hstep
  · obtain rfl := Host.Outcome.next.inj hstep
    exact hs
  · exact h.exec hc _ hstep (hq s _ hs)

theorem withPending_changes (s : State) (q : List Instr) : OnlyChanges [.pending] s (s.withPending q) :=
  fun part hp => by cases part <;> simp_all [State.agrees]

/-- An invariant that reads no part of the Trunk Port's queues and receivers is kept by every step where the elementary
commands that touch it keep it, and the hearing of a good cell. -/
theorem DependsOn.step {parts : List Part} {P : State → Prop} (h : DependsOn parts P)
    (hparts : ∀ part ∈ parts, part ∉ .pending :: portParts) (hear : ∀ s, P s → P (hearGood s))
    (htouched : ∀ c s t, touches parts c = true → elementary c = true → Machine.exec c s = .next t → P s → P t)
    {s t : State} (hstep : Machine.step s = .next t) (hs : P s) : P t :=
  (h.portKept (fun part hp hport => hparts part hp (List.mem_cons_of_mem _ hport)) hear).step
    (h.elementaryKept htouched)
    (fun s q => h.kept (withPending_changes s q) fun part hp hq =>
      hparts part hp (List.mem_singleton.mp hq ▸ List.mem_cons_self)) hstep hs

/-! ### The stages of a second -/

/-- What a property is to be kept by for a timebase second to keep it, stage by stage. -/
structure SecondKept (P : State → Prop) : Prop where
  clock : ∀ s, P s → P (tickClock s)
  ages : ∀ s, P s → P (growAges s)
  slot : ∀ s i, P s → P (tickSlot i s)
  dwells : ∀ s, P s → P (s.onDisplay tickDwells)
  language : ∀ s dwell, dwell = s.settings.languageDwell → P s → P (s.onDisplay (tickLanguage dwell))
  silence : ∀ s, P s → P (tickSilence s)
  swap : ∀ s, P s → P (tickSwap s)
  refresh : ∀ s cycle, P s → P (s.onDisplay (refreshPanels cycle))
  probes : ∀ s, P s → P (s.onDisplay fun _ d => tickProbes d)

theorem SecondKept.takeSecond {P : State → Prop} (h : SecondKept P) {s : State} (hs : P s) : P (takeSecond s) := by
  have timed : P (tickSlots (growAges (tickClock s))) :=
    List.foldlRecOn _ _ (h.ages _ (h.clock _ hs)) fun u hu i _ => h.slot u i hu
  unfold Machine.takeSecond
  generalize tickSlots (growAges (tickClock s)) = u at timed ⊢
  exact h.probes _ (h.refresh _ _ (h.swap _ (h.silence _ (h.language _ _ rfl (h.dwells _ timed)))))

/-- The parts that the stages of a second after the clock and the ages reach. -/
def laterParts : List Part :=
  [.slots, .views, .synthetic, .runtimes, .dirty, .panels, .phase, .silence, .tables, .cursors, .bus .busA, .bus .busB,
    .groups]

/-- What a second leaves of the boards and the clock stands once the ages have grown. -/
theorem takeSecond_after_ages (s : State) : OnlyChanges laterParts (growAges (tickClock s)) (takeSecond s) := by
  unfold Machine.takeSecond
  dsimp only
  refine OnlyChanges.trans ?_ ((onDisplay_changes (fun _ d => tickProbes_changes d) _).mono (by decide))
  refine OnlyChanges.trans ?_ ((onDisplay_changes (fun sc d => refreshPanels_changes _ sc d) _).mono (by decide))
  refine OnlyChanges.trans ?_ ((tickSwap_changes _).mono (by decide))
  refine OnlyChanges.trans ?_ ((tickSilence_changes _).mono (by decide))
  refine OnlyChanges.trans ?_ ((onDisplay_changes (fun sc d => tickLanguage_changes _ sc d) _).mono (by decide))
  refine OnlyChanges.trans ?_ ((onDisplay_changes tickDwells_changes _).mono (by decide))
  exact (tickSlots_changes _).mono (by decide)

end Sys2Proof.Machine

/-! Boards in order: what every change of a board keeps of its order, its size and its fields, and the checks of an ENTRY
read back from the entry that it posts. -/

namespace Sys2Proof.Machine

open Claims

/-! ### The checks of an ENTRY (R6) -/

theorem ranged_eq_some_iff {lo hi n m : Nat} : ranged lo hi n = some m ↔ (lo ≤ n ∧ n ≤ hi) ∧ n = m := by
  simp [ranged, keepIf]

theorem optionalRanged_eq_some_iff {present : Bool} {lo hi n : Nat} {o : Option Nat} :
    optionalRanged present lo hi n = some o ↔ (present = true → lo ≤ n ∧ n ≤ hi) ∧ carried present n = o := by
  cases present with
  | false => simp [optionalRanged, carried]
  | true => simp [optionalRanged, carried, ranged_eq_some_iff]

theorem statusOf?_eq_some_iff {code : Nat} {st : Status} : statusOf? code = some st ↔ CodesStatus code st := by
  unfold statusOf? CodesStatus
  split <;> simp_all [eq_comm]

/-- The entry that an ENTRY posts, field by field, with the checks that its fields have passed. -/
theorem postedEntry?_eq_some_iff {body : EntryBody} {e : Entry} :
    postedEntry? body = some e ↔
      ((1 ≤ body.sid ∧ body.sid ≤ 65535) ∧ body.dest ≤ 1023 ∧ (body.presence.getLsbD 0 = true → body.via ≤ 1023) ∧
        (body.presence.getLsbD 1 = true → 1 ≤ body.platform ∧ body.platform ≤ 32) ∧ body.sched ≤ lastSecond ∧
        (body.presence.getLsbD 2 = true → body.expected ≤ lastSecond) ∧
        (body.presence.getLsbD 3 = true → 1 ≤ body.cars ∧ body.cars ≤ 12)) ∧
      ∃ st, CodesStatus body.status st ∧
        e = ⟨body.sid, body.dest, carried (body.presence.getLsbD 0) body.via,
          carried (body.presence.getLsbD 1) body.platform, body.sched,
          carried (body.presence.getLsbD 2) body.expected, st, carried (body.presence.getLsbD 3) body.cars,
          body.presence.getLsbD 4, 0, .due, .time⟩ := by
  simp only [postedEntry?, Option.bind_eq_bind, Option.bind_eq_some_iff, ranged_eq_some_iff,
    optionalRanged_eq_some_iff, statusOf?_eq_some_iff, Option.pure_def, Option.some.injEq, Nat.zero_le, true_and]
  constructor
  · rintro ⟨_, ⟨hsid, rfl⟩, _, ⟨hdest, rfl⟩, _, ⟨hvia, rfl⟩, _, ⟨hplatform, rfl⟩, _, ⟨hsched, rfl⟩, _,
      ⟨hexpected, rfl⟩, st, hst, _, ⟨hcars, rfl⟩, rfl⟩
    exact ⟨⟨hsid, hdest, hvia, hplatform, hsched, hexpected, hcars⟩, st, hst, rfl⟩
  · rintro ⟨⟨hsid, hdest, hvia, hplatform, hsched, hexpected, hcars⟩, st, hst, rfl⟩
    exact ⟨_, ⟨hsid, rfl⟩, _, ⟨hdest, rfl⟩, _, ⟨hvia, rfl⟩, _, ⟨hplatform, rfl⟩, _, ⟨hsched, rfl⟩, _,
      ⟨hexpected, rfl⟩, st, hst, _, ⟨hcars, rfl⟩, rfl⟩

/-- An ENTRY for one of the eight boards that posts an entry has no bad field. -/
theorem not_entryBad_of_posted {body : EntryBody} {b : Fin 8} {e : Entry} (hb : finOf? 8 body.board = some b)
    (he : postedEntry? body = some e) : ¬EntryBad body := by
  obtain ⟨⟨hsid, hdest, hvia, hplatform, hsched, hexpected, hcars⟩, st, hst, -⟩ := postedEntry?_eq_some_iff.mp he
  have hboard : b.val = body.board := finOf?_eq_some.mp hb
  have hstatus : body.status ≤ 3 := by unfold CodesStatus at hst; omega
  unfold lastSecond at hsched hexpected
  rintro (h | h | h | ⟨hp, h⟩ | ⟨hp, h⟩ | ⟨hp, h⟩ | h | ⟨hp, h⟩ | h)
  · omega
  · omega
  · omega
  · have := hexpected hp; omega
  · have := hplatform hp; omega
  · have := hcars hp; omega
  · omega
  · have := hvia hp; omega
  · omega

theorem takeEntry_of_bad {body : EntryBody} (h : EntryBad body) (s : State) :
    takeEntry body s = s.refuse entryKind .badField := by
  unfold takeEntry
  split
  next hb he => exact absurd h (not_entryBad_of_posted hb he)
  next => rfl

theorem optionIn_carried {present : Bool} {lo hi v : Nat} (h : present = true → lo ≤ v ∧ v ≤ hi) :
    OptionIn lo hi (carried present v) := by
  cases present with
  | false => simp [OptionIn, carried]
  | true => simpa [OptionIn, carried] using h

/-- What an ENTRY posts has its fields in the ranges of R2. -/
theorem Entry.ok_of_posted {body : EntryBody} {e : Entry} (h : postedEntry? body = some e) : e.Ok := by
  obtain ⟨⟨hsid, hdest, hvia, hplatform, hsched, hexpected, hcars⟩, st, -, rfl⟩ := postedEntry?_eq_some_iff.mp h
  exact ⟨hsid.1, hsid.2, hdest, optionIn_carried fun hp => ⟨Nat.zero_le _, hvia hp⟩, optionIn_carried hplatform, hsched,
    optionIn_carried fun hp => ⟨Nat.zero_le _, hexpected hp⟩, optionIn_carried hcars, Nat.zero_le _⟩

theorem postEntry_changes (s : State) (b : Fin 8) (e : Entry) :
    OnlyChanges (.flags :: boardParts) s (postEntry s b e) := by
  have set (l : List Entry) (n : Option Notice) : OnlyChanges (.flags :: boardParts) s (s.setBoard b l n) :=
    (setBoard_changes s b l n).mono (by decide)
  unfold postEntry
  dsimp only
  split
  · split
    · exact set _ _
    · exact OnlyChanges.refl _ s
  · split
    · exact (insertFull_changes s b e _).mono (by decide)
    · exact set _ _

/-- Settles O16: the checks of R6 are those of `postedEntry?`, and a posting refuses nothing. -/
theorem entryWithABadFieldIsRefused : Obligations.EntryWithABadFieldIsRefused := by
  intro body s hwf
  constructor
  · intro hbad
    exact ⟨_, congrArg Host.Outcome.next (takeEntry_of_bad hbad s), refuse_refusedOnly s entryKind .badField⟩
  · intro hgood
    have hboard : body.board < 8 := by unfold EntryBad at hgood; omega
    obtain ⟨e, hexec, -⟩ := takeEntry_of_good (b := ⟨body.board, hboard⟩) s hwf hgood rfl
    exact ⟨_, hexec, postEntry_changes s _ e .refusal (by decide)⟩

/-! ### What keeps a board in order (R1, R2, R4) -/

theorem BoardOk.nil : BoardOk [] := ⟨by simp [boardSize], by simp, by simp, by simp⟩

/-- Entries that leave do not disturb the rest. -/
theorem BoardOk.sublist {l m : List Entry} (h : BoardOk l) (hsub : m.Sublist l) : BoardOk m := by
  obtain ⟨hlen, hnodup, hord, hok⟩ := h
  exact ⟨hsub.length_le.trans hlen, hnodup.sublist (hsub.map _), hord.sublist hsub, fun e he => hok e (hsub.subset he)⟩

/-- A change of age, shown field and role: the posted fields stay. -/
def KeepsPosted (f : Entry → Entry) : Prop :=
  ∀ e, (f e).sid = e.sid ∧ (f e).key = e.key ∧ (e.Ok → (f e).Ok)

theorem BoardOk.map {l : List Entry} (h : BoardOk l) {f : Entry → Entry} (hf : KeepsPosted f) : BoardOk (l.map f) := by
  obtain ⟨hlen, hnodup, hord, hok⟩ := h
  refine ⟨by simpa using hlen, ?_, ?_, ?_⟩
  · have : Entry.sid ∘ f = Entry.sid := funext fun e => (hf e).1
    rwa [List.map_map, this]
  · refine List.pairwise_map.mpr (hord.imp fun {a b} hab => ?_)
    obtain ⟨hsa, hka, -⟩ := hf a
    obtain ⟨hsb, hkb, -⟩ := hf b
    unfold Entry.before at hab ⊢
    rwa [hsa, hka, hsb, hkb]
  · intro e he
    obtain ⟨x, hx, rfl⟩ := List.mem_map.mp he
    exact (hf x).2.2 (hok x hx)

/-- A new entry in range takes its place on a board with room. -/
theorem BoardOk.insertEntry {l : List Entry} (h : BoardOk l) {e : Entry} (he : e.Ok) (hroom : l.length < boardSize)
    (hnew : ∀ x ∈ l, x.sid ≠ e.sid) : BoardOk (insertEntry e l) := by
  have hperm := insertEntry_perm e l
  obtain ⟨hnodup, hord⟩ := nodup_and_ordered_of_boardOk h
  obtain ⟨-, -, -, hok⟩ := h
  refine ⟨?_, ?_, ?_, fun x hx => ?_⟩
  · rw [hperm.length_eq, List.length_cons]
    exact hroom
  · rw [(hperm.map _).nodup_iff, List.map_cons, List.nodup_cons]
    exact ⟨fun hmem => by obtain ⟨x, hx, hsid⟩ := List.mem_map.mp hmem; exact hnew x hx hsid, hnodup⟩
  · exact (insertEntry_ordered hord hnew).imp fun hab => (before_iff_ordersBefore _ _).mpr hab
  · rcases List.mem_cons.mp (hperm.mem_iff.mp hx) with rfl | hx
    · exact he
    · exact hok x hx

theorem keepsPosted_rederived (st : Settings) (clock : StationClock) : KeepsPosted (Entry.rederived st clock) :=
  fun _ => ⟨rfl, rfl, id⟩

theorem keepsPosted_grown (st : Settings) (clock : StationClock) : KeepsPosted (Entry.grown st clock) := by
  intro e
  have older : e.Ok → e.older.Ok := fun ⟨h1, h2, h3, h4, h5, h6, h7, h8, _⟩ =>
    ⟨h1, h2, h3, h4, h5, h6, h7, h8, saturate_le _ _⟩
  unfold Entry.grown
  split
  · exact ⟨rfl, rfl, older⟩
  · exact ⟨rfl, rfl, older⟩

/-! ### Changes of the boards -/

theorem boardsOk_dependsOn : DependsOn [.boards] BoardsOk := fun s t hagree hs b => by
  have hboards : t.boards = s.boards := hagree .boards (by simp)
  rw [hboards]
  exact hs b

theorem BoardsOk.setBoard {s : State} (h : BoardsOk s) {b : Fin 8} {l : List Entry} (hl : BoardOk l)
    (n : Option Notice) : BoardsOk (s.setBoard b l n) := fun b' => by
  rw [setBoard_boards, Vec.get_set]
  split
  · exact hl
  · exact h b'

theorem BoardsOk.changeBoards {s : State} (h : BoardsOk s) {f : Fin 8 → List Entry → List Entry × Option Notice}
    (hf : ∀ b l, BoardOk l → BoardOk (f b l).1) : BoardsOk (s.changeBoards f) := fun b => by
  rw [changeBoards_boards, Vec.get_mapIdx]
  exact hf b _ (h b)

theorem BoardsOk.replaceEntry {s : State} (h : BoardsOk s) {b : Fin 8} {e old : Entry} {i : Nat} (he : e.Ok)
    (hpos : positionOf e.sid (s.boards.get b) = some i) : BoardsOk (replaceEntry s b e i old) := by
  have hothers := eraseIdx_positionOf (h b).2.1 hpos
  have hi : i < (s.boards.get b).length := (List.findIdx?_eq_some_iff_getElem.mp hpos).1
  refine h.setBoard (((h b).sublist (List.eraseIdx_sublist _ _)).insertEntry he ?_ fun x hx => ?_) _
  · have hlen : (s.boards.get b).length ≤ boardSize := (h b).1
    rw [List.length_eraseIdx_of_lt hi]
    omega
  · rw [hothers] at hx
    exact of_decide_eq_true (List.mem_filter.mp hx).2

theorem BoardsOk.insertFull {s : State} (h : BoardsOk s) {b : Fin 8} {e last : Entry} (he : e.Ok)
    (hnew : ∀ x ∈ s.boards.get b, x.sid ≠ e.sid) : BoardsOk (insertFull s b e last) := by
  have raised : BoardsOk (s.onFlags (Flags.raiseOverflow b)) := h
  unfold Machine.insertFull
  dsimp only
  split
  · refine raised.setBoard (((h b).sublist (List.take_sublist _ _)).insertEntry he ?_ fun x hx => ?_) _
    · exact lt_of_le_of_lt (List.length_take_le _ _) (by decide)
    · exact hnew x (List.mem_of_mem_take hx)
  · exact raised

theorem BoardsOk.postEntry {s : State} (h : BoardsOk s) (b : Fin 8) {e : Entry} (he : e.Ok) :
    BoardsOk (postEntry s b e) := by
  unfold Machine.postEntry
  dsimp only
  split
  next i hpos =>
    split
    · exact h.replaceEntry he hpos
    · exact h
  next hnone =>
    have hnew := positionOf_eq_none_iff.mp hnone
    split
    · exact h.insertFull he hnew
    next hroom =>
      refine h.setBoard ((h b).insertEntry he ?_ hnew) _
      have := List.getElem?_eq_none_iff.mp hroom
      unfold boardSize at *
      omega

theorem BoardsOk.takeEntry {s : State} (h : BoardsOk s) (body : EntryBody) : BoardsOk (takeEntry body s) := by
  unfold Machine.takeEntry
  split
  next b e _ he => exact h.postEntry b ((keepsPosted_rederived _ _ e).2.2 (Entry.ok_of_posted he))
  next => exact h

theorem BoardsOk.takeWithdraw {s : State} (h : BoardsOk s) (board sid : Nat) : BoardsOk (takeWithdraw board sid s) := by
  unfold Machine.takeWithdraw
  split
  · split
    · exact h
    · dsimp only
      split
      · exact h.setBoard ((h _).sublist (List.eraseIdx_sublist _ _)) _
      · exact h
  · exact h

theorem BoardsOk.takeClearBoard {s : State} (h : BoardsOk s) (board : Nat) : BoardsOk (takeClearBoard board s) := by
  unfold Machine.takeClearBoard
  split
  · exact h.setBoard BoardOk.nil _
  · exact h

theorem BoardsOk.clockChange {s : State} (h : BoardsOk s) (expire : Bool) : BoardsOk (clockChange expire s) :=
  h.changeBoards fun _ _ hl => (hl.sublist List.filter_sublist).map (keepsPosted_rederived _ _)

theorem BoardsOk.rederiveAll {s : State} (h : BoardsOk s) : BoardsOk (rederiveAll s) :=
  h.changeBoards fun _ _ hl => hl.map (keepsPosted_rederived _ _)

theorem BoardsOk.growAges {s : State} (h : BoardsOk s) : BoardsOk (growAges s) :=
  h.changeBoards fun _ _ hl => hl.map (keepsPosted_grown _ _)

theorem BoardsOk.tickClock {s : State} (h : BoardsOk s) : BoardsOk (tickClock s) := by
  unfold Machine.tickClock
  dsimp only
  split
  · exact h
  · exact BoardsOk.clockChange (s := { s with clock := secondClock s.clock }) h _

theorem BoardsOk.takePulse {s : State} (h : BoardsOk s) : BoardsOk (takePulse s) := by
  unfold Machine.takePulse
  split
  · exact h
  · split
    · exact h
    · dsimp only
      split
      · exact h
      · exact BoardsOk.clockChange (s := { s with clock := pulsedClock s.clock }) h _

theorem BoardsOk.takeTime {s : State} (h : BoardsOk s) (second : Nat) : BoardsOk (takeTime second s) := by
  unfold Machine.takeTime
  split
  · exact h
  · have begun : BoardsOk (if startsNewDay s.clock second then startNewDay s else s) := by
      split
      · exact h.changeBoards fun _ _ _ => BoardOk.nil
      · exact h
    exact BoardsOk.clockChange (s := { (if startsNewDay s.clock second then startNewDay s else s) with
      clock := ⟨second, .synced, 0⟩ }) begun _

theorem keepsPosted_growOne (st : Settings) (clock : StationClock) (sid : Nat) :
    KeepsPosted fun e => if decide (e.sid = sid) && e.justStale st.stalePeriod then e.grown st clock else e := by
  intro e
  dsimp only
  split
  · exact keepsPosted_grown st clock e
  · exact ⟨rfl, rfl, id⟩

theorem boardsOk_of_empty {s : State} (h : ∀ b, s.boards.get b = []) : BoardsOk s := fun b => by
  rw [h b]
  exact BoardOk.nil

/-- The elementary commands that touch the boards keep them in order. -/
theorem boardsOk_touched (c : Instr) (s t : State) (htouch : touches [.boards] c = true)
    (hc : elementary c = true) (hexec : exec c s = .next t) (h : BoardsOk s) : BoardsOk t := by
  cases c with
  | trunkCell | returnCell | characterArrival | cellAbandoned | setUnknownSetting | queryUnknownKind => cases hc
  | entry body =>
    obtain rfl := Host.Outcome.next.inj hexec
    exact h.takeEntry body
  | withdraw board sid =>
    obtain rfl := Host.Outcome.next.inj hexec
    exact h.takeWithdraw board sid
  | clearBoard board =>
    obtain rfl := Host.Outcome.next.inj hexec
    exact h.takeClearBoard board
  | time second =>
    obtain rfl := Host.Outcome.next.inj hexec
    exact h.takeTime second
  | minutePulse =>
    obtain rfl := Host.Outcome.next.inj hexec
    exact h.takePulse
  | timebaseSecond =>
    obtain rfl := Host.Outcome.next.inj hexec
    exact boardsOk_dependsOn.kept (takeSecond_after_ages s) (by decide) h.tickClock.growAges
  | stalePeriodPassed b sid =>
    obtain rfl := Host.Outcome.next.inj hexec
    exact h.setBoard ((h b).map (keepsPosted_growOne _ _ sid)) _
  | clockDrifting =>
    obtain rfl := Host.Outcome.next.inj hexec
    split
    · exact h.tickClock
    · exact h
  | setStalePeriod v | setCountdownLimit v | setDelayThreshold v =>
    obtain rfl := Host.Outcome.next.inj hexec
    exact (boardsOk_dependsOn.kept (setting_changes s _ v _) (by decide) h).rederiveAll
  | restart broadcast =>
    obtain rfl := Host.Outcome.next.inj hexec
    exact boardsOk_of_empty fun b => Vec.get_fill _ b
  | externalReset =>
    obtain rfl := Host.Outcome.next.inj hexec
    exact boardsOk_of_empty fun b => Vec.get_fill _ b
  | _ => exact nomatch htouch

/-- Settles O8: the operations on a board keep it in order, and no other command reaches one. -/
theorem everyStepKeepsBoardsInOrder : Obligations.EveryStepKeepsBoardsInOrder := fun _ _ hs hstep =>
  boardsOk_dependsOn.step (by decide)
    (fun s => boardsOk_dependsOn.kept (hearGood_changes s) (by decide)) boardsOk_touched hstep hs

end Sys2Proof.Machine

/-! Table records: every load read as a judgement in the order of R49, with what its bytes spell; from these the
statements on records, and what a load keeps of a bank. -/

namespace Sys2Proof.Machine

open Claims

/-! ### Judgements -/

/-- A load that is taken passed its index and its length, and wrote what its fields spell. -/
theorem taken_of_judged {α : Type} {result : LoadResult} {indexOk lengthOk : Prop} {fields : α → Prop}
    {written : α → Bank} {bank : Bank} (h : JudgedInOrder result indexOk lengthOk fields written)
    (hok : result = .ok bank) : indexOk ∧ ∃ a, fields a ∧ bank = written a := by
  obtain ⟨hindex, hlength, hfields⟩ := h
  by_cases hi : indexOk
  · refine ⟨hi, ?_⟩
    by_cases hl : lengthOk
    · obtain ⟨hwritten, hbad⟩ := hfields hi hl
      by_cases ha : ∃ a, fields a
      · obtain ⟨a, ha⟩ := ha
        exact ⟨a, ha, Except.ok.inj (hok.symm.trans (hwritten a ha))⟩
      · exact nomatch hok.symm.trans (hbad (not_exists.mp ha))
    · exact nomatch hok.symm.trans (hlength hi hl)
  · exact nomatch hok.symm.trans (hindex hi)

/-- A judgement whose fields are read by a function that may find none. -/
theorem judged_of_read {α : Type} {result : LoadResult} {indexOk lengthOk : Prop} {fields : α → Prop}
    {written : α → Bank} (read : Option α) (hindex : ¬indexOk → result = .error .badIndex)
    (hlength : indexOk → ¬lengthOk → result = .error .badLength)
    (hread : indexOk → lengthOk → ∀ a, fields a ↔ read = some a)
    (hresult : indexOk → lengthOk → result = read.elim (.error .badField) fun a => .ok (written a)) :
    JudgedInOrder result indexOk lengthOk fields written := by
  refine ⟨hindex, hlength, fun hi hl => ⟨fun a ha => ?_, fun hnone => ?_⟩⟩
  · rw [hresult hi hl, (hread hi hl a).mp ha]
    rfl
  · rw [hresult hi hl]
    cases hr : read with
    | none => rfl
    | some a => exact absurd ((hread hi hl a).mpr hr) (hnone a)

/-! ### Bytes -/

theorem byteAt_le (r : List Byte) (i : Nat) : byteAt r i ≤ 255 := Nat.le_of_lt_succ (r.getD i 0).isLt

theorem byteAt_drop (r : List Byte) (n i : Nat) : byteAt (r.drop n) i = byteAt r (n + i) := by
  simp [byteAt, List.getElem?_drop]

theorem wordAt_drop (r : List Byte) (n i : Nat) : wordAt (r.drop n) i = wordAt r (n + i) := by
  simp only [wordAt, byteAt_drop, Nat.add_assoc]

@[simp] theorem byteAt_cons_zero (b : Byte) (r : List Byte) : byteAt (b :: r) 0 = b.toNat := rfl

@[simp] theorem byteAt_cons_succ (b : Byte) (r : List Byte) (i : Nat) : byteAt (b :: r) (i + 1) = byteAt r i := rfl

@[simp] theorem byteAt_nil (i : Nat) : byteAt [] i = 0 := rfl

/-! ### Choice codes as lists of values -/

theorem fieldKindOf?_eq (n : Nat) :
    fieldKindOf? n = [FieldKind.destination, .via, .platform, .scheduled, .time, .cars][n]? :=
  match n with
  | 0 | 1 | 2 | 3 | 4 | 5 | _ + 6 => rfl

theorem alignOf?_eq (n : Nat) : alignOf? n = [Align.left, .right, .centre][n]? :=
  match n with
  | 0 | 1 | 2 | _ + 3 => rfl

theorem roleOf?_eq (n : Nat) :
    roleOf? n =
      [ColourRole.text, .destination, .time, .delayed, .cancelled, .stale, .message, .emergency][n]? :=
  match n with
  | 0 | 1 | 2 | 3 | 4 | 5 | 6 | 7 | _ + 8 => rfl

theorem busOf?_eq (n : Nat) : busOf? n = [Bus.busA, .busB][n]? :=
  match n with
  | 0 | 1 | _ + 2 => rfl

theorem policyOf?_eq (n : Nat) : policyOf? n = [Policy.full, .zones][n]? :=
  match n with
  | 0 | 1 | _ + 2 => rfl

theorem languageOf?_eq (n : Nat) : languageOf? n = [Language.primary, .alternate][n]? :=
  match n with
  | 0 | 1 | _ + 2 => rfl

theorem flagOf?_eq (n : Nat) : flagOf? n = [false, true][n]? :=
  match n with
  | 0 | 1 | _ + 2 => rfl

theorem priorityOf?_eq (n : Nat) : priorityOf? n = [Priority.normal, .service, .emergency][n]? :=
  match n with
  | 0 | 1 | 2 | _ + 3 => rfl

theorem fillOf?_eq (n : Nat) :
    fillOf? n = [some ColourRole.text, some .destination, some .time, some .delayed, some .cancelled, some .stale,
      some .message, some .emergency, none][n]? :=
  match n with
  | 0 | 1 | 2 | 3 | 4 | 5 | 6 | 7 | 8 | _ + 9 => rfl

theorem keepIf_eq_some_iff {α : Type} {ok : Bool} {a b : α} : keepIf ok a = some b ↔ ok = true ∧ a = b := by
  simp [keepIf]

theorem dimGroupOf?_eq_some_iff {n level : Nat} {d : DimGroup} :
    dimGroupOf? n level = some d ↔ (∃ m : Fin 4, n = m.val ∧ d = .sensor m) ∨ (n = 4 ∧ d = .fixed level) := by
  unfold dimGroupOf?
  split
  next h =>
    subst h
    have : ∀ m : Fin 4, 4 ≠ m.val := fun m => by omega
    simp [this, eq_comm]
  next h =>
    simp only [Option.map_eq_some_iff, finOf?_eq_some, h, false_and, or_false]
    constructor <;> rintro ⟨m, hm, rfl⟩ <;> exact ⟨m, hm.symm, rfl⟩

/-- An optional string number behind its marker byte. -/
theorem optionalString_iff {r : List Byte} {i : Nat} {o : Option Nat} :
    OptionalString r i o ↔
      ∃ has, flagOf? (byteAt r i) = some has ∧ optionalRanged has 0 1023 (wordAt r (i + 1)) = some o := by
  simp only [OptionalString, optionalRanged_eq_some_iff, Nat.zero_le, true_and]
  match h : byteAt r i with
  | 0 => simp [flagOf?, carried, eq_comm]
  | 1 => simp [flagOf?, carried, eq_comm, and_comm]
  | _ + 2 => simp [flagOf?]

theorem optionIn_of_optionalString {r : List Byte} {i : Nat} {o : Option Nat} (h : OptionalString r i o) :
    OptionIn 0 1023 o := by
  rcases h with ⟨-, rfl⟩ | ⟨-, rfl, h⟩
  · simp [OptionIn]
  · simpa [OptionIn] using h

/-! ### Fonts and glyphs (R51, R52) -/

theorem loadFont_judged (bank : Bank) (index : Nat) (r : List Byte) :
    JudgedInOrder (loadRecord bank 0 index r) (index ≤ 3) (r.length = 4) (FontFields r)
      (fun f => { bank with fonts := bank.fonts.insert index f }) := by
  refine judged_of_read
    (do
      let h ← ranged 5 24 (byteAt r 0)
      let sp ← ranged 0 3 (byteAt r 1)
      let base ← ranged 0 501 (wordAt r 2)
      pure ⟨h, sp, base⟩)
    (fun hi => ?_) (fun hi hl => ?_) (fun _ _ f => ?_) (fun hi hl => ?_)
  · simp [loadRecord, loadFont, Nat.lt_of_not_le hi]
  · simp [loadRecord, loadFont, Nat.not_lt_of_le hi, hl]
  · simp only [FontFields, Option.bind_eq_bind, Option.bind_eq_some_iff, ranged_eq_some_iff, Option.pure_def,
      Option.some.injEq, Font.Ok, InRange]
    constructor
    · rintro ⟨rfl, hh, hs, hd⟩
      exact ⟨_, ⟨hh, rfl⟩, _, ⟨⟨Nat.zero_le _, hs⟩, rfl⟩, _, ⟨⟨Nat.zero_le _, hd⟩, rfl⟩, rfl⟩
    · rintro ⟨_, ⟨hh, rfl⟩, _, ⟨⟨-, hs⟩, rfl⟩, _, ⟨⟨-, hd⟩, rfl⟩, rfl⟩
      exact ⟨rfl, hh, hs, hd⟩
  · simp only [loadRecord, loadFont, Nat.not_lt_of_le hi, if_false, hl, ne_eq, not_true_eq_false]
    cases ranged 5 24 (byteAt r 0) <;> cases ranged 0 3 (byteAt r 1) <;> cases ranged 0 501 (wordAt r 2) <;> rfl

theorem loadGlyph_badIndex {bank : Bank} {index : Nat} {r : List Byte} (h : 511 < index) :
    loadRecord bank 1 index r = .error .badIndex := by
  simp [loadRecord, loadGlyph, h]

theorem loadGlyph_short {bank : Bank} {index : Nat} {r : List Byte} (h : index ≤ 511) (hr : r.length < 2) :
    loadRecord bank 1 index r = .error .badLength := by
  simp [loadRecord, loadGlyph, Nat.not_lt_of_le h, hr]

theorem loadGlyph_absent {bank : Bank} {index : Nat} {r : List Byte} (h : index ≤ 511) (hr : 2 ≤ r.length)
    (hw : byteAt r 1 = 0) :
    loadRecord bank 1 index r =
      if r.length = 2 then .ok { bank with glyphs := bank.glyphs.erase index } else .error .badLength := by
  simp [loadRecord, loadGlyph, Nat.not_lt_of_le h, Nat.not_lt_of_le hr, hw]

theorem loadGlyph_badField {bank : Bank} {index : Nat} {r : List Byte} (h : index ≤ 511) (hr : 2 ≤ r.length)
    (hw : byteAt r 1 ≠ 0) (hbad : 16 < byteAt r 1 ∨ 3 < byteAt r 0 ∨ bank.fonts.find (byteAt r 0) = none) :
    loadRecord bank 1 index r = .error .badField := by
  simp only [loadRecord, loadGlyph, Nat.not_lt_of_le h, Nat.not_lt_of_le hr, hw, if_false]
  split
  · rfl
  · split
    · rfl
    · rw [hbad.resolve_left ‹_› |>.resolve_left ‹_›]

theorem loadGlyph_present {bank : Bank} {index : Nat} {r : List Byte} {font : Font} (h : index ≤ 511)
    (hr : 2 ≤ r.length) (hw : byteAt r 1 ≠ 0) (hwidth : byteAt r 1 ≤ 16) (hfont : byteAt r 0 ≤ 3)
    (hfind : bank.fonts.find (byteAt r 0) = some font) :
    loadRecord bank 1 index r =
      if r.length = 2 + font.height * ((byteAt r 1 + 7) / 8) then
        .ok { bank with glyphs := bank.glyphs.insert index ⟨byteAt r 1, font.height, r.drop 2⟩ }
      else .error .badLength := by
  have hceil : ceilDiv (byteAt r 1) 8 = (byteAt r 1 + 7) / 8 := rfl
  simp only [loadRecord, loadGlyph, Nat.not_lt_of_le h, Nat.not_lt_of_le hr, hw, Nat.not_lt_of_le hwidth,
    Nat.not_lt_of_le hfont, hfind, hceil, if_false]
  by_cases hlen : r.length = 2 + font.height * ((byteAt r 1 + 7) / 8) <;> simp only [hlen, ne_eq, not_true_eq_false,
    not_false_eq_true, if_true, if_false]

/-! ### Palettes, tiles and the curve (R54 to R56) -/

theorem mapM_finOf?_eq_some_iff {n : Nat} {l : List Byte} {roles : List (Fin n)} :
    l.mapM (fun b => finOf? n b.toNat) = some roles ↔ roles.map Fin.val = l.map BitVec.toNat := by
  induction l generalizing roles with
  | nil => cases roles <;> simp
  | cons b rest ih =>
    simp only [List.mapM_cons, Option.bind_eq_bind, Option.bind_eq_some_iff, finOf?_eq_some, ih, Option.pure_def,
      Option.some.injEq, List.map_cons]
    cases roles with
    | nil => simp
    | cons role roles => simp only [List.cons.injEq, List.map_cons]; aesop

theorem loadPalette_judged (bank : Bank) (index : Nat) (r : List Byte) :
    JudgedInOrder (loadRecord bank 3 index r) (index ≤ 3) (r.length = 56)
      (fun p => p.colours = r.take 48 ∧ p.roles.map Fin.val = (r.drop 48).map BitVec.toNat)
      (fun p => { bank with palettes := bank.palettes.insert index p }) := by
  refine judged_of_read (((r.drop 48).mapM fun b => finOf? 16 b.toNat).map fun roles => ⟨r.take 48, roles⟩)
    (fun hi => ?_) (fun hi hl => ?_) (fun _ _ p => ?_) (fun hi hl => ?_)
  · simp [loadRecord, loadPalette, Nat.lt_of_not_le hi]
  · simp [loadRecord, loadPalette, Nat.not_lt_of_le hi, hl]
  · obtain ⟨colours, roles⟩ := p
    simp only [Option.map_eq_some_iff, mapM_finOf?_eq_some_iff, Palette.mk.injEq]
    constructor
    · rintro ⟨rfl, h⟩
      exact ⟨roles, h, rfl, rfl⟩
    · rintro ⟨_, h, rfl, rfl⟩
      exact ⟨rfl, h⟩
  · simp only [loadRecord, loadPalette, Nat.not_lt_of_le hi, if_false, hl, ne_eq, not_true_eq_false]
    cases (r.drop 48).mapM fun b => finOf? 16 b.toNat <;> rfl

theorem loadTile_badIndex {bank : Bank} {index : Nat} {r : List Byte} (h : 47 < index) :
    loadRecord bank 4 index r = .error .badIndex := by
  simp [loadRecord, loadTile, h]

/-- A tile with one of its segments loaded, the other as it was (R55). -/
def Tile.loaded (old : Tile) (segment : Byte) (lines : List Byte) : Tile :=
  if segment.toNat = 0 then ⟨some lines, old.lower⟩ else ⟨old.upper, some lines⟩

theorem loadTile_cons {bank : Bank} {index : Nat} {segment : Byte} {lines : List Byte} (h : index ≤ 47) :
    loadRecord bank 4 index (segment :: lines) =
      if 1 < segment.toNat then .error .badIndex
      else if lines.length ≠ 128 then .error .badLength
      else
        .ok { bank with tiles := bank.tiles.insert index (((bank.tiles.find index).getD ⟨none, none⟩).loaded segment lines) } := by
  simp only [loadRecord, loadTile, Nat.not_lt_of_le h, if_false]
  rfl

theorem pointsOf_spell {l : List Byte} {n : Nat} (h : l.length = 2 * n) :
    (pointsOf l).length = n ∧
      ∀ k, k < n → (pointsOf l)[k]? = some (byteAt l (2 * k), byteAt l (2 * k + 1)) := by
  induction n generalizing l with
  | zero => simp [List.eq_nil_of_length_eq_zero h, pointsOf]
  | succ n ih =>
    match l, h with
    | light :: level :: rest, h =>
      obtain ⟨hlen, hget⟩ := ih (l := rest) (by simp only [List.length_cons] at h; omega)
      refine ⟨by simp [pointsOf, hlen], fun k hk => ?_⟩
      cases k with
      | zero => rfl
      | succ k => simpa [pointsOf, Nat.mul_add] using hget k (by omega)

theorem risingCurve_iff {points : List (Nat × Nat)} :
    risingCurve points = true ↔
      ∀ k p q, points[k]? = some p → points[k + 1]? = some q → p.1 < q.1 ∧ p.2 ≤ q.2 := by
  induction points with
  | nil => simp [risingCurve]
  | cons x rest ih =>
    cases rest with
    | nil => simp [risingCurve]
    | cons y rest =>
      simp only [risingCurve, Bool.and_eq_true, decide_eq_true_eq, ih]
      constructor
      · rintro ⟨hxy, h⟩ k p q hp hq
        cases k with
        | zero => simp only [List.getElem?_cons_zero, List.getElem?_cons_succ, Option.some.injEq] at hp hq; simpa [← hp, ← hq] using hxy
        | succ k => exact h k p q (by simpa using hp) (by simpa using hq)
      · exact fun h => ⟨h 0 x y rfl rfl, fun k p q hp hq => h (k + 1) p q (by simpa using hp) (by simpa using hq)⟩

/-- The points of a curve record, where they pass the checks of R56. -/
def readCurve : List Byte → Option (List (Nat × Nat))
  | [] => none
  | count :: rest =>
    if (ranged 2 8 count.toNat).isNone || !risingCurve (pointsOf rest) then none else some (pointsOf rest)

theorem readCurve_cons_eq_some_iff {count : Byte} {rest : List Byte} {points : List (Nat × Nat)} :
    readCurve (count :: rest) = some points ↔
      (2 ≤ count.toNat ∧ count.toNat ≤ 8) ∧ risingCurve (pointsOf rest) = true ∧ pointsOf rest = points := by
  have hsome : (ranged 2 8 count.toNat).isNone = false ↔ 2 ≤ count.toNat ∧ count.toNat ≤ 8 := by
    simp only [ranged, keepIf]
    split <;> simp_all
  rw [← hsome, readCurve]
  split
  next h =>
    refine ⟨fun h' => (nomatch h'), fun ⟨hinside, hrising, _⟩ => ?_⟩
    rw [hinside, hrising] at h
    cases h
  next h =>
    simp only [Bool.or_eq_true, not_or, Bool.not_eq_true, Bool.not_eq_false'] at h
    simp only [h, true_and, Option.some.injEq]

theorem loadCurve_judged (bank : Bank) (index : Nat) (r : List Byte) :
    JudgedInOrder (loadRecord bank 5 index r) (index = 0) (r.length = 1 + 2 * byteAt r 0) (CurveFields r)
      (fun points => { bank with curve := some points }) := by
  refine judged_of_read (readCurve r) (fun hi => ?_) (fun hi hl => ?_) (fun _ hl points => ?_) (fun hi hl => ?_)
  · simp [loadRecord, loadCurve, hi]
  · cases r with
    | nil => simp [loadRecord, loadCurve, hi]
    | cons count rest =>
      have : rest.length ≠ 2 * count.toNat := fun h => hl (by simp [h, Nat.add_comm])
      simp [loadRecord, loadCurve, hi, this]
  · cases r with
    | nil => simp at hl
    | cons count rest =>
      obtain ⟨hlen, hget⟩ := pointsOf_spell (l := rest) (n := count.toNat) (by simp at hl; omega)
      simp only [readCurve_cons_eq_some_iff, CurveFields, InRange, byteAt_cons_zero, byteAt_cons_succ]
      constructor
      · rintro ⟨hrange, hcount, hspell, hrising⟩
        have heq : pointsOf rest = points := by
          refine List.ext_getElem? fun k => ?_
          by_cases hk : k < count.toNat
          · rw [hget k hk, hspell k (by omega)]
          · rw [List.getElem?_eq_none (by omega), List.getElem?_eq_none (by omega)]
        exact ⟨by omega, heq ▸ risingCurve_iff.mpr hrising, heq⟩
      · rintro ⟨hrange, hrising, rfl⟩
        exact ⟨by omega, hlen, fun k hk => hget k (by omega), risingCurve_iff.mp hrising⟩
  · cases r with
    | nil => simp at hl
    | cons count rest =>
      have hrest : rest.length = 2 * count.toNat := by simp at hl; omega
      simp only [loadRecord, loadCurve, readCurve, hi, hrest, ne_eq, not_true_eq_false, if_false]
      split <;> rfl

/-- Settles O37: each loader judges in the order of R49. -/
theorem fontToCurveRecordsAreJudged : Obligations.FontToCurveRecordsAreJudged := by
  intro bank index r
  refine ⟨fun table h => ?_, loadFont_judged bank index r, loadGlyph_badIndex, loadGlyph_short, loadGlyph_absent,
    fun hi hr hw => ⟨loadGlyph_badField hi hr hw, fun font h16 h3 hf => loadGlyph_present hi hr hw h16 h3 hf⟩,
    loadPalette_judged bank index r, loadTile_badIndex, ?_, ?_, loadCurve_judged bank index r⟩
  · unfold loadRecord
    split
    case h_10 => rfl
    all_goals exact absurd h (by decide)
  · rintro hi rfl
    simp [loadRecord, loadTile, Nat.not_lt_of_le hi]
  · rintro hi segment lines rfl
    refine ⟨fun hs => ?_, fun hs hl => ?_, fun hs hl => ?_⟩
    · rw [loadTile_cons hi, if_pos hs]
    · rw [loadTile_cons hi, if_neg (Nat.not_lt_of_le hs), if_pos hl]
    · rw [loadTile_cons hi, if_neg (Nat.not_lt_of_le hs), if_neg (not_not.mpr hl)]
      rfl

/-! ### Row formats (R57) -/

theorem column?_eq_some_iff {r : List Byte} {c : Column} : column? r = some c ↔ ColumnFields r 0 c := by
  obtain ⟨field, x, w, align, role⟩ := c
  simp only [column?, ColumnFields, Option.bind_eq_bind, Option.bind_eq_some_iff, ranged_eq_some_iff,
    keepIf_eq_some_iff, decide_eq_true_eq, fieldKindOf?_eq, alignOf?_eq, roleOf?_eq, Option.pure_def,
    Option.some.injEq, Column.mk.injEq, Column.Ok, InRange, Nat.zero_add]
  constructor
  · rintro ⟨_, hf, _, ⟨⟨-, hx⟩, rfl⟩, _, ⟨hw, rfl⟩, _, ⟨hsum, -⟩, _, ha, _, hr, rfl, rfl, rfl, rfl, rfl⟩
    exact ⟨hf, rfl, rfl, ha, hr, hx, hw, hsum⟩
  · rintro ⟨hf, rfl, rfl, ha, hr, hx, hw, hsum⟩
    exact ⟨_, hf, _, ⟨⟨Nat.zero_le _, hx⟩, rfl⟩, _, ⟨hw, rfl⟩, (), ⟨hsum, trivial⟩, _, ha, _, hr, rfl, rfl, rfl, rfl, rfl⟩

theorem columnFields_drop {r : List Byte} {n i : Nat} {c : Column} :
    ColumnFields (r.drop n) i c ↔ ColumnFields r (n + i) c := by
  simp only [ColumnFields, byteAt_drop, wordAt_drop, Nat.add_assoc]

theorem columns?_eq_some_iff {n : Nat} {r : List Byte} {columns : List Column} :
    columns? n r = some columns ↔
      columns.length = n ∧ ∀ k c, columns[k]? = some c → ColumnFields r (7 * k) c := by
  induction n generalizing r columns with
  | zero =>
    simp only [columns?, Option.some.injEq, List.length_eq_zero_iff]
    constructor
    · rintro rfl; simp
    · rintro ⟨rfl, -⟩; rfl
  | succ n ih =>
    simp only [columns?, Option.bind_eq_bind, Option.bind_eq_some_iff, column?_eq_some_iff, ih, Option.pure_def,
      Option.some.injEq, columnFields_drop]
    constructor
    · rintro ⟨c, hc, rest, ⟨hlen, hrest⟩, rfl⟩
      refine ⟨by simp [hlen], fun k d hd => ?_⟩
      cases k with
      | zero =>
        obtain rfl : c = d := by simpa using hd
        exact hc
      | succ k => simpa [Nat.mul_add, Nat.add_comm] using hrest k d (by simpa using hd)
    · rintro ⟨hlen, h⟩
      cases columns with
      | nil => simp at hlen
      | cons c rest =>
        exact ⟨c, h 0 c rfl, rest, ⟨by simpa using hlen, fun k d hd => by
          simpa [Nat.mul_add, Nat.add_comm] using h (k + 1) d (by simpa using hd)⟩, rfl⟩

theorem loadFormat_judged (bank : Bank) (index : Nat) (r : List Byte) :
    JudgedInOrder (loadRecord bank 6 index r) (index ≤ 7) (r.length = 1 + 7 * byteAt r 0) (FormatFields r)
      (fun columns => { bank with formats := bank.formats.insert index columns }) := by
  refine judged_of_read
    (if (ranged 1 6 (byteAt r 0)).isNone then none else columns? (byteAt r 0) (r.drop 1))
    (fun hi => ?_) (fun hi hl => ?_) (fun _ hl columns => ?_) (fun hi hl => ?_)
  · simp [loadRecord, loadFormat, Nat.lt_of_not_le hi]
  · cases r with
    | nil => simp [loadRecord, loadFormat, Nat.not_lt_of_le hi]
    | cons count rest =>
      have : rest.length ≠ 7 * count.toNat := fun h => hl (by simp [h, Nat.add_comm])
      simp [loadRecord, loadFormat, Nat.not_lt_of_le hi, this]
  · have hsome : (ranged 1 6 (byteAt r 0)).isNone = true ↔ ¬(1 ≤ byteAt r 0 ∧ byteAt r 0 ≤ 6) := by
      simp [ranged, keepIf]
    simp only [hsome, Option.ite_none_left_eq_some, not_not, columns?_eq_some_iff, columnFields_drop, FormatFields,
      FormatOk, InRange]
    constructor
    · rintro ⟨hlen, ⟨hrange, -⟩, h⟩
      exact ⟨by omega, hlen, h⟩
    · rintro ⟨hrange, hlen, h⟩
      refine ⟨hlen, ⟨by omega, fun c hc => ?_⟩, h⟩
      obtain ⟨k, hk⟩ := List.mem_iff_getElem?.mp hc
      exact (h k c hk).2.2.2.2.2
  · cases r with
    | nil => simp at hl
    | cons count rest =>
      have hrest : rest.length = 7 * count.toNat := by simp at hl; omega
      simp only [loadRecord, loadFormat, Nat.not_lt_of_le hi, hrest, byteAt_cons_zero, List.drop_succ_cons,
        List.drop_zero, ne_eq, not_true_eq_false, if_false]
      split
      · rfl
      · cases columns? count.toNat rest <;> rfl

/-! ### Panels (R58) -/

theorem panelFields_of_panelRow? {r : List Byte} {row : PanelRow} (h : panelRow? r = some row) : PanelFields r row := by
  obtain ⟨bus, hbus, h⟩ := Option.bind_eq_some_iff.mp h
  obtain ⟨address, haddress, h⟩ := Option.bind_eq_some_iff.mp h
  obtain ⟨width, hwidth, h⟩ := Option.bind_eq_some_iff.mp h
  obtain ⟨_, hmod, h⟩ := Option.bind_eq_some_iff.mp h
  obtain ⟨height, hheight, h⟩ := Option.bind_eq_some_iff.mp h
  obtain ⟨palette, hpalette, h⟩ := Option.bind_eq_some_iff.mp h
  obtain ⟨background, hbackground, h⟩ := Option.bind_eq_some_iff.mp h
  obtain ⟨busClass, hclass, h⟩ := Option.bind_eq_some_iff.mp h
  obtain ⟨dim, hdim, h⟩ := Option.bind_eq_some_iff.mp h
  obtain ⟨policy, hpolicy, h⟩ := Option.bind_eq_some_iff.mp h
  obtain ⟨font, hfont, h⟩ := Option.bind_eq_some_iff.mp h
  obtain ⟨interval, hinterval, h⟩ := Option.bind_eq_some_iff.mp h
  obtain ⟨has, hflag, h⟩ := Option.bind_eq_some_iff.mp h
  obtain ⟨fallback, hfallback, h⟩ := Option.bind_eq_some_iff.mp h
  obtain rfl := Option.some.inj h
  obtain ⟨inAddress, rfl⟩ := ranged_eq_some_iff.mp haddress
  obtain ⟨inWidth, rfl⟩ := ranged_eq_some_iff.mp hwidth
  obtain ⟨inHeight, rfl⟩ := ranged_eq_some_iff.mp hheight
  obtain ⟨inPalette, rfl⟩ := ranged_eq_some_iff.mp hpalette
  obtain ⟨inClass, rfl⟩ := ranged_eq_some_iff.mp hclass
  obtain ⟨inFont, rfl⟩ := ranged_eq_some_iff.mp hfont
  obtain ⟨inInterval, rfl⟩ := ranged_eq_some_iff.mp hinterval
  have hdim := dimGroupOf?_eq_some_iff.mp hdim
  have hstring := optionalString_iff.mpr ⟨has, hflag, hfallback⟩
  refine ⟨busOf?_eq _ ▸ hbus, rfl, rfl, rfl, rfl, finOf?_eq_some.mp hbackground, rfl, hdim, policyOf?_eq _ ▸ hpolicy, rfl,
    rfl, hstring, inAddress, inWidth, of_decide_eq_true (keepIf_eq_some_iff.mp hmod).1, inHeight, inPalette.2, inClass.2,
    fun level hl => ?_, inFont.2, inInterval, optionIn_of_optionalString hstring⟩
  rcases hdim with ⟨m, -, rfl⟩ | ⟨-, rfl⟩
  · cases hl
  · exact DimGroup.fixed.inj hl ▸ byteAt_le r 10

theorem panelRow?_of_panelFields {r : List Byte} {row : PanelRow} (h : PanelFields r row) : panelRow? r = some row := by
  obtain ⟨bus, address, width, height, palette, background, busClass, dim, policy, font, interval, fallback⟩ := row
  obtain ⟨hbus, rfl, rfl, rfl, rfl, hbackground, rfl, hdim, hpolicy, rfl, rfl, hstring, haddress, hwidth, hmod, hheight,
    hpalette, hclass, -, hfont, hinterval, -⟩ := h
  obtain ⟨has, hflag, hfallback⟩ := optionalString_iff.mp hstring
  have upTo {hi n : Nat} (hn : n ≤ hi) : ranged 0 hi n = some n := ranged_eq_some ⟨Nat.zero_le n, hn⟩
  have hkeep : keepIf (decide (wordAt r 3 % 8 = 0)) () = some () := keepIf_eq_some_iff.mpr ⟨decide_eq_true hmod, rfl⟩
  simp only [panelRow?, (busOf?_eq _).trans hbus, ranged_eq_some haddress, ranged_eq_some hwidth,
    hkeep, ranged_eq_some hheight, upTo hpalette,
    finOf?_eq_some.mpr hbackground, upTo hclass, dimGroupOf?_eq_some_iff.mpr hdim, (policyOf?_eq _).trans hpolicy,
    upTo hfont, ranged_eq_some hinterval, hflag, hfallback, Option.bind_eq_bind, Option.bind_some, Option.pure_def]

theorem panelRow?_eq_some_iff {r : List Byte} {row : PanelRow} : panelRow? r = some row ↔ PanelFields r row :=
  ⟨panelFields_of_panelRow?, panelRow?_of_panelFields⟩

theorem duplicateAddress_eq_false_iff {panels : Table PanelRow} {index : Nat} {row : PanelRow} :
    duplicateAddress panels index row = false ↔
      ∀ e ∈ panels, e.1 ≠ index → ¬(e.2.bus = row.bus ∧ e.2.address = row.address) := by
  simp [duplicateAddress]

/-- The record of a panel as its bytes spell it: absent, present, or not a record. -/
def readPanel (bank : Bank) (index : Nat) (r : List Byte) : Option (Option PanelRow) :=
  match flagOf? (byteAt r 0) with
  | none => none
  | some false => some none
  | some true => (panelRow? r).bind fun row => if duplicateAddress bank.panels index row then none else some (some row)

theorem loadPanel_judged (bank : Bank) (index : Nat) (r : List Byte) :
    JudgedInOrder (loadRecord bank 7 index r) (index ≤ 15) (r.length = 18)
      (fun panel : Option PanelRow =>
        match panel with
        | none => byteAt r 0 = 0
        | some row => byteAt r 0 = 1 ∧ PanelFields r row ∧
          ∀ e ∈ bank.panels, e.1 ≠ index → ¬(e.2.bus = row.bus ∧ e.2.address = row.address))
      (fun panel => { bank with panels := bank.panels.write index panel }) := by
  refine judged_of_read (readPanel bank index r) (fun hi => ?_) (fun hi hl => ?_) (fun _ _ panel => ?_)
    (fun hi hl => ?_)
  · simp [loadRecord, loadPanel, Nat.lt_of_not_le hi]
  · simp [loadRecord, loadPanel, Nat.not_lt_of_le hi, hl]
  · unfold readPanel
    match byteAt r 0 with
    | 0 => cases panel <;> simp [flagOf?]
    | 1 =>
      cases panel with
      | none => simp [flagOf?, Option.bind_eq_some_iff]
      | some row =>
        simp only [flagOf?, Option.bind_eq_some_iff, Option.ite_none_left_eq_some, Option.some.injEq,
          Bool.not_eq_true, ← duplicateAddress_eq_false_iff, ← panelRow?_eq_some_iff, true_and]
        constructor
        · rintro ⟨hrow, hdup⟩
          exact ⟨row, hrow, hdup, rfl⟩
        · rintro ⟨_, hrow, hdup, rfl⟩
          exact ⟨hrow, hdup⟩
    | _ + 2 => cases panel <;> simp [flagOf?]
  · simp only [loadRecord, loadPanel, Nat.not_lt_of_le hi, if_false, hl, ne_eq, not_true_eq_false, readPanel]
    rcases flagOf? (byteAt r 0) with _ | _ | _
    · rfl
    · rfl
    · cases panelRow? r with
      | none => rfl
      | some row =>
        simp only [Option.bind_some]
        split <;> rfl

/-! ### Zones (R59) -/

/-- The kind bytes of a zone record, and the ranges of the fields that they spell. -/
theorem zoneKind?_eq_some_iff {r : List Byte} {kind : ZoneKind} :
    zoneKind? (byteAt r 0) (r.drop 10) = some kind ↔ KindFields r kind ∧ kind.Ok := by
  unfold zoneKind? KindFields
  match byteAt r 0 with
  | 0 => simp
  | 1 =>
    simp only [Option.bind_eq_bind, Option.bind_eq_some_iff, finOf?_eq_some, ranged_eq_some_iff, byteAt_drop,
      Option.pure_def, Option.some.injEq, Nat.reduceEqDiff, false_and, or_false, true_and]
    constructor
    · rintro ⟨board, hboard, _, ⟨⟨-, hformat⟩, rfl⟩, _, ⟨⟨-, hfirst⟩, rfl⟩, _, ⟨hrows, rfl⟩, _, ⟨⟨-, hgap⟩, rfl⟩, _,
        ⟨hpages, rfl⟩, _, ⟨hdwell, rfl⟩, rfl⟩
      exact ⟨⟨board, hboard, rfl⟩, hformat, hfirst, hrows, hgap, hpages, hdwell⟩
    · rintro ⟨⟨board, hboard, rfl⟩, hformat, hfirst, hrows, hgap, hpages, hdwell⟩
      exact ⟨board, hboard, _, ⟨⟨Nat.zero_le _, hformat⟩, rfl⟩, _, ⟨⟨Nat.zero_le _, hfirst⟩, rfl⟩, _, ⟨hrows, rfl⟩, _,
        ⟨⟨Nat.zero_le _, hgap⟩, rfl⟩, _, ⟨hpages, rfl⟩, _, ⟨hdwell, rfl⟩, rfl⟩
  | 2 =>
    simp only [Option.bind_eq_bind, Option.bind_eq_some_iff, ranged_eq_some_iff, byteAt_drop, wordAt_drop,
      priorityOf?_eq, Option.pure_def, Option.some.injEq, Nat.reduceEqDiff,
      false_and, false_or, or_false, true_and]
    constructor
    · rintro ⟨floor, hfloor, _, ⟨hinterval, rfl⟩, _, ⟨hdwell, rfl⟩, has, hflag, idle, hidle, rfl⟩
      have hstring := optionalString_iff.mpr ⟨_, hflag, hidle⟩
      exact ⟨⟨floor, idle, hfloor, hstring, rfl⟩, hinterval, hdwell, optionIn_of_optionalString hstring⟩
    · rintro ⟨⟨floor, idle, hfloor, hstring, rfl⟩, hinterval, hdwell, -⟩
      obtain ⟨has, hflag, hidle⟩ := optionalString_iff.mp hstring
      exact ⟨floor, hfloor, _, ⟨hinterval, rfl⟩, _, ⟨hdwell, rfl⟩, has, hflag, idle, hidle, rfl⟩
  | 3 =>
    simp only [Option.bind_eq_bind, Option.bind_eq_some_iff, byteAt_drop, flagOf?_eq, alignOf?_eq, Option.pure_def,
      Option.some.injEq, Nat.reduceEqDiff, false_and, false_or, or_false,
      true_and]
    constructor
    · rintro ⟨seconds, hs, align, ha, rfl⟩
      exact ⟨⟨seconds, align, hs, ha, rfl⟩, trivial⟩
    · rintro ⟨⟨seconds, align, hs, ha, rfl⟩, -⟩
      exact ⟨seconds, hs, align, ha, rfl⟩
  | 4 =>
    simp only [Option.bind_eq_bind, Option.bind_eq_some_iff, ranged_eq_some_iff, byteAt_drop, Option.pure_def,
      Option.some.injEq, Nat.reduceEqDiff, false_and, false_or, or_false,
      true_and]
    constructor
    · rintro ⟨_, ⟨-, rfl⟩, _, ⟨⟨hle, hlast⟩, rfl⟩, _, ⟨hdwell, rfl⟩, rfl⟩
      exact ⟨rfl, hle, hlast, hdwell⟩
    · rintro ⟨rfl, hle, hlast, hdwell⟩
      exact ⟨_, ⟨⟨Nat.zero_le _, le_trans hle hlast⟩, rfl⟩, _, ⟨⟨hle, hlast⟩, rfl⟩, _, ⟨hdwell, rfl⟩, rfl⟩
  | 5 =>
    simp only [Option.bind_eq_bind, Option.bind_eq_some_iff, ranged_eq_some_iff, byteAt_drop, wordAt_drop,
      alignOf?_eq, roleOf?_eq, Option.pure_def, Option.some.injEq,
      Nat.reduceEqDiff, false_and, false_or, true_and]
    constructor
    · rintro ⟨_, ⟨⟨-, hstring⟩, rfl⟩, align, ha, role, hr, rfl⟩
      exact ⟨⟨align, role, ha, hr, rfl⟩, hstring⟩
    · rintro ⟨⟨align, role, ha, hr, rfl⟩, hstring⟩
      exact ⟨_, ⟨⟨Nat.zero_le _, hstring⟩, rfl⟩, align, ha, role, hr, rfl⟩
  | n + 6 => simp

theorem zone?_eq_some_iff {r : List Byte} {zone : Zone} : zone? r = some zone ↔ ZoneFields r zone := by
  obtain ⟨kind, x, y, w, h, font, fill, language⟩ := zone
  simp only [zone?, ZoneFields, Option.bind_eq_bind, Option.bind_eq_some_iff, ranged_eq_some_iff, keepIf_eq_some_iff,
    Bool.and_eq_true, decide_eq_true_eq, fillOf?_eq, languageOf?_eq, zoneKind?_eq_some_iff, Option.pure_def,
    Option.some.injEq, Zone.mk.injEq, Zone.Ok, InRange]
  constructor
  · rintro ⟨_, ⟨⟨-, hx⟩, rfl⟩, _, ⟨⟨-, hy⟩, rfl⟩, _, ⟨hw, rfl⟩, _, ⟨hh, rfl⟩, _, ⟨⟨hxw, hyh⟩, -⟩, _, ⟨⟨-, hfont⟩, rfl⟩, _,
      hfill, _, hlanguage, _, ⟨hkind, hok⟩, rfl, rfl, rfl, rfl, rfl, rfl, rfl, rfl⟩
    exact ⟨rfl, rfl, rfl, rfl, rfl, hfill, hlanguage, hkind, hx, hy, hw, hh, hxw, hyh, hfont, hok⟩
  · rintro ⟨rfl, rfl, rfl, rfl, rfl, hfill, hlanguage, hkind, hx, hy, hw, hh, hxw, hyh, hfont, hok⟩
    exact ⟨_, ⟨⟨Nat.zero_le _, hx⟩, rfl⟩, _, ⟨⟨Nat.zero_le _, hy⟩, rfl⟩, _, ⟨hw, rfl⟩, _, ⟨hh, rfl⟩, (), ⟨⟨hxw, hyh⟩, trivial⟩,
      _, ⟨⟨Nat.zero_le _, hfont⟩, rfl⟩, _, hfill, _, hlanguage, _, ⟨hkind, hok⟩, rfl, rfl, rfl, rfl, rfl, rfl, rfl, rfl⟩

theorem loadZone_judged (bank : Bank) (index : Nat) (r : List Byte) :
    JudgedInOrder (loadRecord bank 8 index r) (index ≤ 191) (r.length = 17)
      (fun zone : Option Zone =>
        match zone with
        | none => byteAt r 0 = 0
        | some zone => byteAt r 0 ≠ 0 ∧ ZoneFields r zone)
      (fun zone => { bank with zones := bank.zones.write index zone }) := by
  refine judged_of_read (if byteAt r 0 = 0 then some none else (zone? r).map some) (fun hi => ?_) (fun hi hl => ?_)
    (fun _ _ zone => ?_) (fun hi hl => ?_)
  · simp [loadRecord, loadZone, Nat.lt_of_not_le hi]
  · simp [loadRecord, loadZone, Nat.not_lt_of_le hi, hl]
  · by_cases h0 : byteAt r 0 = 0 <;> cases zone <;> simp [h0, zone?_eq_some_iff]
  · simp only [loadRecord, loadZone, Nat.not_lt_of_le hi, if_false, hl, ne_eq, not_true_eq_false]
    split
    · rfl
    · cases zone? r <;> rfl

/-- Settles O38: each loader judges in the order of R49. -/
theorem formatPanelAndZoneRecordsAreJudged : Obligations.FormatPanelAndZoneRecordsAreJudged := fun bank index r =>
  ⟨loadFormat_judged bank index r, loadPanel_judged bank index r, loadZone_judged bank index r⟩

end Sys2Proof.Machine

/-! Strings and the pool, the record that a taken load writes, and what the Table Store's operations keep of it. -/

namespace Sys2Proof.Machine

open Claims

/-! ### Strings and the pool (R53) -/

theorem length_flatMap_bytes2 (codes : List Nat) : (codes.flatMap bytes2).length = 2 * codes.length := by
  induction codes with
  | nil => rfl
  | cons c rest ih => simp only [List.flatMap_cons, List.length_append, ih, length_bytes2, List.length_cons]; omega

/-- Codes of two bytes are read back (R184). -/
theorem wordsOf_flatMap_bytes2 {codes : List Nat} (h : ∀ c ∈ codes, c ≤ 65535) :
    wordsOf (codes.flatMap bytes2) = codes := by
  induction codes with
  | nil => rfl
  | cons c rest ih =>
    obtain ⟨hc, hrest⟩ := List.forall_mem_cons.mp h
    have hbyte : c / 256 % 256 * 256 + c % 256 = c := by omega
    simp [bytes2, wordsOf, ih hrest, hbyte]

/-- The checks on the variants of a string, and the pool (R53). -/
def poolChecked (bank : Bank) (index : Nat) (st : Str) : LoadResult :=
  if 48 < st.primary.length || 48 < (st.secondary.getD []).length ||
      (st.primary ++ st.secondary.getD []).any (fun c => decide (511 < c)) then .error .badField
  else
    let pool := bank.pool - ((bank.strings.find index).map Str.codes).getD 0 + st.codes
    if 16384 < pool then .error .poolFull
    else .ok { bank with strings := bank.strings.insert index st, pool := pool }

/-- A string record of a length that its counts call for comes down to the checks on its variants. -/
theorem loadString_of_layout {bank : Bank} {index : Nat} (hi : index ≤ 1023) {count : Byte} {codes : List Byte}
    {count' : Byte} {codes' : List Byte} (hcodes : codes.length = 2 * count.toNat)
    (hcodes' : codes'.length = if count'.toNat = 255 then 0 else 2 * count'.toNat) :
    loadRecord bank 2 index (count :: (codes ++ count' :: codes')) =
      poolChecked bank index
        ⟨wordsOf codes, if count'.toNat = 255 then none else some (wordsOf codes')⟩ := by
  have hsecond : byteAt (count :: (codes ++ count' :: codes')) (1 + 2 * count.toNat) = count'.toNat := by
    rw [← hcodes, Nat.add_comm, byteAt_cons_succ]
    simpa using byteAt_append_right codes (count' :: codes') 0
  have hlength : (count :: (codes ++ count' :: codes')).length =
      2 + 2 * count.toNat + if count'.toNat = 255 then 0 else 2 * count'.toNat := by
    simp only [List.length_cons, List.length_append, hcodes, hcodes']
    omega
  have hprimary : ((count :: (codes ++ count' :: codes')).drop 1).take (2 * count.toNat) = codes := by
    rw [← hcodes]
    simp
  have hsecondary : (count :: (codes ++ count' :: codes')).drop (2 + 2 * count.toNat) = codes' := by
    rw [← hcodes, show 2 + codes.length = codes.length + 1 + 1 by omega]
    simp
  have hshort : ¬(count :: (codes ++ count' :: codes')).length < 2 + 2 * count.toNat := by omega
  simp only [loadRecord, loadString, byteAt_cons_zero, hsecond, hprimary, hsecondary, Nat.not_lt_of_le hi, hshort,
    if_false]
  rw [if_neg (not_not.mpr hlength)]
  rfl

/-- The second part of a string record in its cell layout: the count, 255 where there is no second variant. -/
def secondCount (secondary : Option (List Nat)) : Byte :=
  match secondary with
  | none => 255
  | some codes => BitVec.ofNat 8 codes.length

theorem stringRecord_eq (primary : List Nat) (secondary : Option (List Nat)) :
    stringRecord primary secondary =
      BitVec.ofNat 8 primary.length ::
        (primary.flatMap bytes2 ++ secondCount secondary :: (secondary.getD []).flatMap bytes2) := by
  cases secondary <;> simp [stringRecord, secondCount, bytes1]

/-- A string record in its cell layout is judged by the checks on the variants that it spells (R187). -/
theorem loadRecord_stringRecord {bank : Bank} {index : Nat} {primary : List Nat} {secondary : Option (List Nat)}
    (hi : index ≤ 1023) (hp : primary.length ≤ 254) (hs : (secondary.getD []).length ≤ 254)
    (hpc : ∀ c ∈ primary, c ≤ 65535) (hsc : ∀ c ∈ secondary.getD [], c ≤ 65535) :
    loadRecord bank 2 index (stringRecord primary secondary) = poolChecked bank index ⟨primary, secondary⟩ := by
  have hcount : (BitVec.ofNat 8 primary.length).toNat = primary.length := Nat.mod_eq_of_lt (by omega)
  have hsecond : (secondary.getD []).length * 2 = (if (secondCount secondary).toNat = 255 then 0
        else 2 * (secondCount secondary).toNat) ∧
      (if (secondCount secondary).toNat = 255 then none else some (secondary.getD [])) = secondary := by
    cases secondary with
    | none => simp [secondCount]
    | some codes =>
      have hlen : (secondCount (some codes)).toNat = codes.length := Nat.mod_eq_of_lt (by simp at hs; omega)
      have hne : codes.length ≠ 255 := by simp at hs; omega
      simp [hlen, hne, Nat.mul_comm]
  rw [stringRecord_eq, loadString_of_layout hi (by rw [length_flatMap_bytes2, hcount])
    (by rw [length_flatMap_bytes2, ← hsecond.1, Nat.mul_comm]), wordsOf_flatMap_bytes2 hpc, wordsOf_flatMap_bytes2 hsc,
    hsecond.2]

theorem variantsBad_iff {st : Str} :
    (48 < st.primary.length || 48 < (st.secondary.getD []).length ||
        (st.primary ++ st.secondary.getD []).any (fun c => decide (511 < c))) = true ↔
      48 < st.primary.length ∨ 48 < (st.secondary.getD []).length ∨ (∃ c ∈ st.primary, 511 < c) ∨
        ∃ c ∈ st.secondary.getD [], 511 < c := by
  simp only [Bool.or_eq_true, decide_eq_true_eq, List.any_append, List.any_eq_true, or_assoc]

/-- A string whose variants pass the checks is in the ranges of R53. -/
theorem Str.ok_of_checked {st : Str}
    (h : ¬(48 < st.primary.length ∨ 48 < (st.secondary.getD []).length ∨ (∃ c ∈ st.primary, 511 < c) ∨
        ∃ c ∈ st.secondary.getD [], 511 < c)) : st.Ok := by
  simp only [not_or, not_lt, not_exists, not_and] at h
  obtain ⟨hp, hs, hpc, hsc⟩ := h
  refine ⟨⟨hp, hpc⟩, fun codes hcodes => ?_⟩
  rw [hcodes] at hs hsc
  exact ⟨hs, hsc⟩

theorem loadString_badLength {bank : Bank} {index : Nat} {r : List Byte} (hi : index ≤ 1023)
    (h : r.length < 2 + 2 * byteAt r 0 ∨ r.length ≠ 2 + 2 * byteAt r 0 +
      (if byteAt r (1 + 2 * byteAt r 0) = 255 then 0 else 2 * byteAt r (1 + 2 * byteAt r 0))) :
    loadRecord bank 2 index r = .error .badLength := by
  simp only [loadRecord, loadString, Nat.not_lt_of_le hi, if_false]
  split
  · rfl
  next hshort => rw [if_pos (h.resolve_left hshort)]

/-- Settles O39: a record in its layout comes down to the checks on its variants and the pool. -/
theorem stringLoadKeepsThePoolLimit : Obligations.StringLoadKeepsThePoolLimit := by
  refine ⟨fun bank index primary secondary hi hp hs hpc hsc => ⟨fun hbad => ?_, fun hp48 hs48 hp511 hs511 => ?_⟩,
    fun bank index r => ⟨fun hi => ?_, fun hi => loadString_badLength hi⟩⟩
  · rw [loadRecord_stringRecord hi hp hs hpc hsc, poolChecked, if_pos (variantsBad_iff.mpr hbad)]
  · have hgood : ¬(48 < primary.length ∨ 48 < (secondary.getD []).length ∨ (∃ c ∈ primary, 511 < c) ∨
        ∃ c ∈ secondary.getD [], 511 < c) := by
      rintro (h | h | ⟨c, hc, h⟩ | ⟨c, hc, h⟩)
      · omega
      · omega
      · exact absurd (hp511 c hc) (Nat.not_le_of_lt h)
      · exact absurd (hs511 c hc) (Nat.not_le_of_lt h)
    rw [loadRecord_stringRecord hi hp hs hpc hsc, poolChecked, if_neg (mt variantsBad_iff.mp hgood)]
    cases bank.strings.find index <;> rfl
  · simp [loadRecord, loadString, hi]

/-! ### The record that a taken load writes (R49, R50) -/

/-- The bank that a taken load leaves, by its table and index. -/
inductive Taken (bank : Bank) : Nat → Nat → Bank → Prop
  | font {i : Nat} {f : Font} : i < 4 → f.Ok → Taken bank 0 i { bank with fonts := bank.fonts.insert i f }
  | noGlyph {i : Nat} : i < 512 → Taken bank 1 i { bank with glyphs := bank.glyphs.erase i }
  | glyph {i width k : Nat} {font : Font} {rows : List Byte} : i < 512 → 1 ≤ width → width ≤ 16 →
      bank.fonts.find k = some font → rows.length = font.height * ((width + 7) / 8) →
      Taken bank 1 i { bank with glyphs := bank.glyphs.insert i ⟨width, font.height, rows⟩ }
  | string {i : Nat} {st : Str} : i < 1024 → st.Ok →
      bank.pool - ((bank.strings.find i).map Str.codes).getD 0 + st.codes ≤ 16384 →
      Taken bank 2 i { bank with
        strings := bank.strings.insert i st
        pool := bank.pool - ((bank.strings.find i).map Str.codes).getD 0 + st.codes }
  | palette {i : Nat} {p : Palette} : i < 4 → p.Ok → Taken bank 3 i { bank with palettes := bank.palettes.insert i p }
  | tile {i : Nat} {segment : Byte} {lines : List Byte} : i < 48 → lines.length = 128 →
      Taken bank 4 i { bank with
        tiles := bank.tiles.insert i (((bank.tiles.find i).getD ⟨none, none⟩).loaded segment lines) }
  | curve {points : List (Nat × Nat)} : CurveOk points → Taken bank 5 0 { bank with curve := some points }
  | format {i : Nat} {columns : List Column} : i < 8 → FormatOk columns →
      Taken bank 6 i { bank with formats := bank.formats.insert i columns }
  | noPanel {i : Nat} : i < 16 → Taken bank 7 i { bank with panels := bank.panels.erase i }
  | panel {i : Nat} {row : PanelRow} : i < 16 → row.Ok →
      (∀ e ∈ bank.panels, e.1 ≠ i → ¬(e.2.bus = row.bus ∧ e.2.address = row.address)) →
      Taken bank 7 i { bank with panels := bank.panels.insert i row }
  | noZone {i : Nat} : i < 192 → Taken bank 8 i { bank with zones := bank.zones.erase i }
  | zone {i : Nat} {zone : Zone} : i < 192 → zone.Ok →
      Taken bank 8 i { bank with zones := bank.zones.insert i zone }

theorem taken_glyph {bank bank' : Bank} {index : Nat} {r : List Byte} (h : loadRecord bank 1 index r = .ok bank') :
    Taken bank 1 index bank' := by
  by_cases hi : index ≤ 511
  · by_cases hr : 2 ≤ r.length
    · by_cases hw : byteAt r 1 = 0
      · rw [loadGlyph_absent hi hr hw] at h
        split at h
        · obtain rfl := Except.ok.inj h
          exact .noGlyph (by omega)
        · cases h
      · by_cases hbad : 16 < byteAt r 1 ∨ 3 < byteAt r 0 ∨ bank.fonts.find (byteAt r 0) = none
        · cases (loadGlyph_badField hi hr hw hbad).symm.trans h
        · simp only [not_or, not_lt, ← ne_eq, Option.ne_none_iff_exists'] at hbad
          obtain ⟨hwidth, hfont, font, hfind⟩ := hbad
          rw [loadGlyph_present hi hr hw hwidth hfont hfind] at h
          split at h
          next hlen =>
            obtain rfl := Except.ok.inj h
            exact .glyph (by omega) (by omega) hwidth hfind (by rw [List.length_drop, hlen]; omega)
          · cases h
    · cases (loadGlyph_short hi (by omega)).symm.trans h
  · cases (loadGlyph_badIndex (by omega)).symm.trans h

/-- A record of the length that its counts call for is made of the two counts and the codes they announce. -/
theorem stringLayout_of_length {r : List Byte} (hshort : ¬r.length < 2 + 2 * byteAt r 0)
    (hlen : r.length = 2 + 2 * byteAt r 0 +
      (if byteAt r (1 + 2 * byteAt r 0) = 255 then 0 else 2 * byteAt r (1 + 2 * byteAt r 0))) :
    ∃ (count : Byte) (codes : List Byte) (count' : Byte) (codes' : List Byte), codes.length = 2 * count.toNat ∧
      codes'.length = (if count'.toNat = 255 then 0 else 2 * count'.toNat) ∧
      r = count :: (codes ++ count' :: codes') := by
  cases r with
  | nil => simp at hshort
  | cons count rest =>
    simp only [byteAt_cons_zero, List.length_cons] at hshort hlen
    have hlt : 2 * count.toNat < rest.length := by omega
    have hat : byteAt (count :: rest) (1 + 2 * count.toNat) = rest[2 * count.toNat].toNat := by
      rw [Nat.add_comm, byteAt_cons_succ]
      simp [byteAt, hlt]
    simp only [hat] at hlen
    refine ⟨count, rest.take (2 * count.toNat), rest[2 * count.toNat], rest.drop (2 * count.toNat + 1),
      by rw [List.length_take]; omega, by rw [List.length_drop]; omega, ?_⟩
    rw [← List.drop_eq_getElem_cons hlt, List.take_append_drop]

theorem taken_string {bank bank' : Bank} {index : Nat} {r : List Byte} (h : loadRecord bank 2 index r = .ok bank') :
    Taken bank 2 index bank' := by
  have checked {st : Str} (hi : index < 1024) (h : poolChecked bank index st = .ok bank') : Taken bank 2 index bank' := by
    unfold poolChecked at h
    dsimp only at h
    split at h
    · cases h
    next hgood =>
      split at h
      · cases h
      next hpool =>
        obtain rfl := Except.ok.inj h
        exact .string hi (Str.ok_of_checked (mt variantsBad_iff.mpr hgood)) (Nat.le_of_not_lt hpool)
  by_cases hi : index ≤ 1023
  · by_cases hlen : r.length < 2 + 2 * byteAt r 0 ∨ r.length ≠ 2 + 2 * byteAt r 0 +
        (if byteAt r (1 + 2 * byteAt r 0) = 255 then 0 else 2 * byteAt r (1 + 2 * byteAt r 0))
    · cases (loadString_badLength hi hlen).symm.trans h
    · rw [not_or] at hlen
      obtain ⟨hshort, hlen⟩ := hlen
      obtain ⟨count, codes, count', codes', hcodes, hcodes', rfl⟩ := stringLayout_of_length hshort (not_not.mp hlen)
      exact checked (by omega) ((loadString_of_layout hi hcodes hcodes').symm.trans h)
  · simp [loadRecord, loadString, Nat.lt_of_not_le hi] at h

theorem taken_tile {bank bank' : Bank} {index : Nat} {r : List Byte} (h : loadRecord bank 4 index r = .ok bank') :
    Taken bank 4 index bank' := by
  by_cases hi : index ≤ 47
  · cases r with
    | nil => simp [loadRecord, loadTile, Nat.not_lt_of_le hi] at h
    | cons segment lines =>
      rw [loadTile_cons hi] at h
      split at h
      · cases h
      · split at h
        · cases h
        next hlen =>
          obtain rfl := Except.ok.inj h
          exact .tile (by omega) (not_not.mp hlen)
  · cases (loadTile_badIndex (by omega)).symm.trans h

theorem curveOk_of_fields {r : List Byte} {points : List (Nat × Nat)} (h : CurveFields r points) : CurveOk points := by
  obtain ⟨hrange, -, hspell, hrising⟩ := h
  refine ⟨hrange.1, hrange.2, risingCurve_iff.mpr hrising, fun p hp => ?_⟩
  obtain ⟨k, hk, rfl⟩ := List.mem_iff_getElem.mp hp
  have := hspell k hk
  rw [List.getElem?_eq_getElem hk, Option.some.injEq] at this
  rw [this]
  exact ⟨byteAt_le r _, byteAt_le r _⟩

/-- What a taken load does (R49, R50). -/
theorem loadRecord_taken {bank bank' : Bank} {table index : Nat} {r : List Byte}
    (h : loadRecord bank table index r = .ok bank') : Taken bank table index bank' := by
  match table with
  | 0 =>
    obtain ⟨hi, f, ⟨-, hok⟩, rfl⟩ := taken_of_judged (loadFont_judged bank index r) h
    exact .font (by omega) hok
  | 1 => exact taken_glyph h
  | 2 => exact taken_string h
  | 3 =>
    have hlen : r.length = 56 := by
      by_contra hl
      obtain ⟨hi, -⟩ := taken_of_judged (loadPalette_judged bank index r) h
      cases ((loadPalette_judged bank index r).2.1 hi hl).symm.trans h
    obtain ⟨hi, p, ⟨hcolours, hroles⟩, rfl⟩ := taken_of_judged (loadPalette_judged bank index r) h
    have hroles := congrArg List.length hroles
    simp only [List.length_map, List.length_drop, hlen] at hroles
    exact .palette (by omega) ⟨by simp [hcolours, hlen], hroles⟩
  | 4 => exact taken_tile h
  | 5 =>
    obtain ⟨rfl, points, hfields, rfl⟩ := taken_of_judged (loadCurve_judged bank index r) h
    exact .curve (curveOk_of_fields hfields)
  | 6 =>
    obtain ⟨hi, columns, ⟨-, hok, -⟩, rfl⟩ := taken_of_judged (loadFormat_judged bank index r) h
    exact .format (by omega) hok
  | 7 =>
    obtain ⟨hi, panel, hfields, rfl⟩ := taken_of_judged (loadPanel_judged bank index r) h
    cases panel with
    | none => exact .noPanel (by omega)
    | some row =>
      obtain ⟨-, hpanel, hunshared⟩ := hfields
      obtain ⟨-, -, -, -, -, -, -, -, -, -, -, -, hok⟩ := hpanel
      exact .panel (by omega) hok hunshared
  | 8 =>
    obtain ⟨hi, zone, hfields, rfl⟩ := taken_of_judged (loadZone_judged bank index r) h
    cases zone with
    | none => exact .noZone (by omega)
    | some zone =>
      obtain ⟨-, -, -, -, -, -, -, -, -, hok⟩ := hfields
      exact .zone (by omega) hok
  | table + 9 => cases h

/-! ### What a load leaves of a bank -/

theorem Table.find_insert_of_ne {α : Type} {t : Table α} {k j : Nat} {a : α} (h : j ≠ k) :
    (Table.insert k a t).find j = t.find j := by
  rw [Table.find_insert, if_neg h.symm]

theorem Table.find_erase_of_ne {α : Type} {t : Table α} {k j : Nat} (h : j ≠ k) :
    (Table.erase k t).find j = t.find j := by
  rw [Table.find_erase, if_neg h.symm]

theorem TableOk.insert {α : Type} {bound : Nat} {ok : α → Prop} {t : Table α} (h : TableOk bound ok t) {k : Nat} {a : α}
    (hk : k < bound) (ha : ok a) : TableOk bound ok (Table.insert k a t) := by
  obtain ⟨hwf, hall⟩ := h
  refine ⟨Table.wf_insert hwf k a, fun e he => ?_⟩
  rcases Table.mem_insert he with rfl | he
  · exact ⟨hk, ha⟩
  · exact hall e he

theorem TableOk.erase {α : Type} {bound : Nat} {ok : α → Prop} {t : Table α} (h : TableOk bound ok t) (k : Nat) :
    TableOk bound ok (Table.erase k t) :=
  ⟨Table.wf_erase h.1 k, fun e he => h.2 e (List.mem_of_mem_filter he)⟩

theorem TableOk.of_find {α : Type} {bound : Nat} {ok : α → Prop} {t : Table α} (h : TableOk bound ok t) {k : Nat} {a : α}
    (hfind : t.find k = some a) : k < bound ∧ ok a := h.2 (k, a) (Table.mem_of_find hfind)

/-- Writing a record exchanges its share of a sum over the table. -/
theorem Table.sum_insert {α : Type} {t : Table α} (h : t.wf) (k : Nat) (a : α) (g : α → Nat) :
    ((Table.insert k a t).map fun e => g e.2).sum + ((t.find k).map g).getD 0 = (t.map fun e => g e.2).sum + g a := by
  induction t with
  | nil => simp [Table.insert, Table.find]
  | cons e rest ih =>
    obtain ⟨j, b⟩ := e
    obtain ⟨hj, hrest⟩ := List.pairwise_cons.mp h
    unfold Table.insert
    split
    next hk =>
      have : Table.find ((j, b) :: rest) k = none := Table.find_eq_none_of_lt fun e he => by
        rcases List.mem_cons.mp he with rfl | he
        · exact hk
        · exact hk.trans (hj e he)
      rw [this]
      simp [Nat.add_comm]
    next hk =>
      split
      next heq =>
        subst heq
        simp [Table.find]
        omega
      next hne =>
        have := ih hrest
        rw [Table.find, if_neg (Ne.symm hne)]
        simp only [List.map_cons, List.sum_cons]
        omega

theorem codes_le_codesHeld (bank : Bank) (i : Nat) :
    ((bank.strings.find i).map Str.codes).getD 0 ≤ bank.codesHeld := by
  cases hfind : bank.strings.find i with
  | none => exact Nat.zero_le _
  | some st =>
    have hmem := List.mem_map_of_mem (f := fun e : Nat × Str => e.2.codes) (Table.mem_of_find hfind)
    exact List.single_le_sum (fun _ _ => Nat.zero_le _) _ hmem

theorem Tile.ok_loaded {old : Tile} (h : old.Ok ∨ old = ⟨none, none⟩) (segment : Byte) {lines : List Byte}
    (hlen : lines.length = 128) : (old.loaded segment lines).Ok := by
  have upper : ∀ l, old.upper = some l → l.length = 128 := by
    rcases h with ⟨-, hu, -⟩ | rfl
    · exact hu
    · simp
  have lower : ∀ l, old.lower = some l → l.length = 128 := by
    rcases h with ⟨-, -, hl⟩ | rfl
    · exact hl
    · simp
  unfold Tile.loaded
  split
  · exact ⟨.inl (by simp), by simpa using hlen, lower⟩
  · exact ⟨.inr (by simp), upper, by simpa using hlen⟩

/-- A taken load leaves a sound bank sound (R48 to R59). -/
theorem Bank.ok_of_taken {bank bank' : Bank} {table index : Nat} (h : bank.Ok) (htaken : Taken bank table index bank') :
    bank'.Ok := by
  obtain ⟨hfonts, hglyphs, hstrings, hpalettes, htiles, hformats, hpanels, hzones, hpool, hlimit, hcurve, hshared⟩ := h
  cases htaken with
  | font hi hok =>
    exact ⟨hfonts.insert hi hok, hglyphs, hstrings, hpalettes, htiles, hformats, hpanels, hzones, hpool, hlimit, hcurve,
      hshared⟩
  | noGlyph hi =>
    exact ⟨hfonts, hglyphs.erase _, hstrings, hpalettes, htiles, hformats, hpanels, hzones, hpool, hlimit, hcurve,
      hshared⟩
  | glyph hi hlow hwidth hfind hrows =>
    have hheight := (hfonts.of_find hfind).2.1
    exact ⟨hfonts, hglyphs.insert hi ⟨⟨hlow, hwidth⟩, hheight, hrows⟩, hstrings, hpalettes, htiles, hformats, hpanels,
      hzones, hpool, hlimit, hcurve, hshared⟩
  | @string _ st hi hok hlimit' =>
    refine ⟨hfonts, hglyphs, hstrings.insert hi hok, hpalettes, htiles, hformats, hpanels, hzones, ?_, hlimit', hcurve,
      hshared⟩
    have hsum := Table.sum_insert hstrings.1 index st Str.codes
    have hle := codes_le_codesHeld bank index
    unfold Bank.codesHeld at *
    dsimp only
    omega
  | palette hi hok =>
    exact ⟨hfonts, hglyphs, hstrings, hpalettes.insert hi hok, htiles, hformats, hpanels, hzones, hpool, hlimit, hcurve,
      hshared⟩
  | @tile _ segment lines hi hlen =>
    refine ⟨hfonts, hglyphs, hstrings, hpalettes, htiles.insert hi (Tile.ok_loaded ?_ segment hlen), hformats, hpanels,
      hzones, hpool, hlimit, hcurve, hshared⟩
    cases hfind : bank.tiles.find index with
    | none => exact .inr rfl
    | some t => exact .inl (htiles.of_find hfind).2
  | curve hok =>
    exact ⟨hfonts, hglyphs, hstrings, hpalettes, htiles, hformats, hpanels, hzones, hpool, hlimit,
      fun points hp => Option.some.inj hp ▸ hok, hshared⟩
  | format hi hok =>
    exact ⟨hfonts, hglyphs, hstrings, hpalettes, htiles, hformats.insert hi hok, hpanels, hzones, hpool, hlimit, hcurve,
      hshared⟩
  | noPanel hi =>
    exact ⟨hfonts, hglyphs, hstrings, hpalettes, htiles, hformats, hpanels.erase _, hzones, hpool, hlimit, hcurve,
      fun e he f hf => hshared e (List.mem_of_mem_filter he) f (List.mem_of_mem_filter hf)⟩
  | panel hi hok hunshared =>
    refine ⟨hfonts, hglyphs, hstrings, hpalettes, htiles, hformats, hpanels.insert hi hok, hzones, hpool, hlimit, hcurve,
      fun e he f hf hbus haddress => ?_⟩
    rcases Table.mem_insert he with rfl | he <;> rcases Table.mem_insert hf with rfl | hf
    · rfl
    · exact (not_imp_comm.mp (hunshared f hf) fun h => h ⟨hbus.symm, haddress.symm⟩).symm
    · exact not_imp_comm.mp (hunshared e he) fun h => h ⟨hbus, haddress⟩
    · exact hshared e he f hf hbus haddress
  | noZone hi =>
    exact ⟨hfonts, hglyphs, hstrings, hpalettes, htiles, hformats, hpanels, hzones.erase _, hpool, hlimit, hcurve,
      hshared⟩
  | zone hi hok =>
    exact ⟨hfonts, hglyphs, hstrings, hpalettes, htiles, hformats, hpanels, hzones.insert hi hok, hpool, hlimit, hcurve,
      hshared⟩

/-! ### The standby bank -/

@[simp] theorem setStandbyBank_standbyBank (t : TableStore) (bank : Bank) : (t.setStandbyBank bank).standbyBank = bank := by
  cases h : t.active <;> simp [TableStore.setStandbyBank, TableStore.standbyBank, TableStore.bank, BankId.other, h]

@[simp] theorem setStandbyBank_activeBank (t : TableStore) (bank : Bank) :
    (t.setStandbyBank bank).activeBank = t.activeBank := by
  cases h : t.active <;> simp [TableStore.setStandbyBank, TableStore.activeBank, TableStore.bank, h]

@[simp] theorem setStandbyBank_marks (t : TableStore) (bank : Bank) :
    (t.setStandbyBank bank).active = t.active ∧ (t.setStandbyBank bank).standby = t.standby ∧
      (t.setStandbyBank bank).swapPending = t.swapPending ∧ (t.setStandbyBank bank).copyTimer = t.copyTimer := by
  cases h : t.active <;> simp [TableStore.setStandbyBank, h]

/-- Both banks are sound exactly where the active and the standby one are. -/
theorem banksOk_iff (t : TableStore) : (t.bankA.Ok ∧ t.bankB.Ok) ↔ (t.activeBank.Ok ∧ t.standbyBank.Ok) := by
  unfold TableStore.activeBank TableStore.standbyBank TableStore.bank
  cases t.active
  · exact Iff.rfl
  · exact and_comm

/-- The marks of the Table Store agree (R47): the copy timer runs exactly in COPYING, and a swap is pending only over a
standby bank that is CLEAN or LOADED. -/
def MarksAgree (standby : StandbyState) (swapPending : Bool) (copyTimer : Option Nat) : Prop :=
  (copyTimer.isSome = true ↔ standby = .copying) ∧ (swapPending = true → standby = .clean ∨ standby = .loaded)

theorem tableStoreOk_iff (t : TableStore) :
    t.Ok ↔ (t.activeBank.Ok ∧ t.standbyBank.Ok) ∧ MarksAgree t.standby t.swapPending t.copyTimer := by
  rw [← banksOk_iff]
  unfold TableStore.Ok MarksAgree
  tauto

theorem not_busy_iff (t : TableStore) : ¬t.busy = true ↔ t.standby ≠ .copying ∧ t.swapPending = false := by
  simp [TableStore.busy]

theorem takeTableLoad_error {s : State} {table index : Nat} {record : List Byte} {reason : Reason}
    (hbusy : ¬s.tables.busy = true) (hf : s.tables.standby ≠ .faulted)
    (hr : loadRecord s.tables.standbyBank table index record = .error reason) :
    takeTableLoad table index record s =
      State.refuse { s with tables := { s.tables with standby := .faulted } } tableLoadKind reason := by
  simp only [takeTableLoad, if_neg hbusy, if_neg hf, hr]

theorem takeTableLoad_ok {s : State} {table index : Nat} {record : List Byte} {bank : Bank}
    (hbusy : ¬s.tables.busy = true) (hf : s.tables.standby ≠ .faulted)
    (hr : loadRecord s.tables.standbyBank table index record = .ok bank) :
    takeTableLoad table index record s =
      { s with tables := { s.tables.setStandbyBank bank with standby := .loaded } } := by
  simp only [takeTableLoad, if_neg hbusy, if_neg hf, hr]

/-- Settles O36: what a load does to the Table Store, and the one record that it writes. -/
theorem tableLoadWritesItsRecordAlone : Obligations.TableLoadWritesItsRecordAlone := by
  have hbusy (s : State) : s.tables.busy = true ↔ Busy s := by simp [TableStore.busy, Busy]
  have hexec (table index : Nat) (record : List Byte) (s : State) :
      exec (.tableLoad table index record) s = .next (takeTableLoad table index record s) := rfl
  refine ⟨fun table index record s => ⟨fun hb => ?_, fun hb hf => ?_, fun hb hf reason hr => ?_,
    fun hb hf bank hr => ?_⟩, fun bank bank' table index record h k => ?_⟩
  · exact ⟨_, by rw [hexec, takeTableLoad, if_pos ((hbusy s).mpr hb)]; rfl, refuse_refusedOnly s _ _⟩
  · exact ⟨_, by rw [hexec, takeTableLoad, if_neg (mt (hbusy s).mp hb), if_pos hf]; rfl, refuse_refusedOnly s _ _⟩
  · refine ⟨_, congrArg Host.Outcome.next (takeTableLoad_error (mt (hbusy s).mp hb) hf hr), rfl, saturate_eq_min _ _, rfl,
      ?_⟩
    exact ((setTables_changes s _).mono (by decide)).trans ((refuse_changes _ _ _).mono (by decide))
  · exact ⟨_, congrArg Host.Outcome.next (takeTableLoad_ok (mt (hbusy s).mp hb) hf hr),
      setStandbyBank_standbyBank s.tables bank, rfl, setStandbyBank_activeBank s.tables bank,
      (setStandbyBank_marks s.tables bank).1, setTables_changes s _⟩
  · cases loadRecord_taken h <;> simp +contextual [Table.find_insert_of_ne, Table.find_erase_of_ne]

/-! ### What the Table Store's operations keep (R47 to R50, R60 to R63) -/

theorem Bank.ok_empty : Bank.empty.Ok := by
  have table {α : Type} (bound : Nat) (ok : α → Prop) : TableOk bound ok ([] : Table α) := ⟨List.Pairwise.nil, by simp⟩
  exact ⟨table _ _, table _ _, table _ _, table _ _, table _ _, table _ _, table _ _, table _ _, rfl, Nat.zero_le _,
    by simp [Bank.empty], by simp [Bank.empty]⟩

/-- A standby bank exchanged for a sound one, with marks that agree, leaves the Table Store sound. -/
theorem TableStore.Ok.setStandbyBank {t : TableStore} (h : t.Ok) {bank : Bank} (hbank : bank.Ok)
    {standby : StandbyState} {swapPending : Bool} {copyTimer : Option Nat}
    (hmarks : MarksAgree standby swapPending copyTimer) :
    ({ t.setStandbyBank bank with standby := standby, swapPending := swapPending, copyTimer := copyTimer } :
      TableStore).Ok := by
  obtain ⟨hactive, -⟩ := ((tableStoreOk_iff t).mp h).1
  refine (tableStoreOk_iff _).mpr ⟨⟨?_, ?_⟩, hmarks⟩
  · exact (setStandbyBank_activeBank t bank).symm ▸ hactive
  · exact (setStandbyBank_standbyBank t bank).symm ▸ hbank

/-- The marks alone changed to ones that agree. -/
theorem TableStore.Ok.marks {t : TableStore} (h : t.Ok) {standby : StandbyState} {swapPending : Bool}
    {copyTimer : Option Nat} (hmarks : MarksAgree standby swapPending copyTimer) :
    ({ t with standby := standby, swapPending := swapPending, copyTimer := copyTimer } : TableStore).Ok :=
  (tableStoreOk_iff _).mpr ⟨((tableStoreOk_iff t).mp h).1, hmarks⟩

/-- What a Table Store that is not busy holds in its marks. -/
theorem TableStore.Ok.idle_marks {t : TableStore} (h : t.Ok) (hbusy : ¬t.busy = true) :
    t.standby ≠ .copying ∧ t.swapPending = false ∧ t.copyTimer = none := by
  obtain ⟨hstandby, hpending⟩ := (not_busy_iff t).mp hbusy
  obtain ⟨-, -, htimer, -⟩ := h
  refine ⟨hstandby, hpending, ?_⟩
  simpa using mt htimer.mp hstandby

theorem takeTableLoad_tablesOk {s : State} (h : s.tables.Ok) (table index : Nat) (record : List Byte) :
    (takeTableLoad table index record s).tables.Ok := by
  unfold takeTableLoad
  split
  · exact h
  next hbusy =>
    obtain ⟨-, hpending, htimer⟩ := h.idle_marks hbusy
    split
    · exact h
    · split
      next bank hload =>
        have hbank := Bank.ok_of_taken ((tableStoreOk_iff _).mp h).1.2 (loadRecord_taken hload)
        have := h.setStandbyBank hbank (standby := .loaded) (swapPending := false) (copyTimer := none)
          ⟨by simp, by simp⟩
        simpa [setStandbyBank_marks, hpending, htimer] using this
      next => exact h.marks (standby := .faulted) ⟨by simp [htimer], by simp [hpending]⟩

theorem takeBankCopy_tablesOk {s : State} (h : s.tables.Ok) : (takeBankCopy s).tables.Ok := by
  unfold takeBankCopy
  split
  · exact h
  next hbusy =>
    exact h.marks (standby := .copying) (copyTimer := some copyTime) ⟨by simp, by simp [(h.idle_marks hbusy).2.1]⟩

theorem takeBankClear_tablesOk {s : State} (h : s.tables.Ok) : (takeBankClear s).tables.Ok := by
  unfold takeBankClear
  split
  · exact h
  next hbusy =>
    obtain ⟨-, hpending, htimer⟩ := h.idle_marks hbusy
    have := h.setStandbyBank Bank.ok_empty (standby := .clean) (swapPending := false) (copyTimer := none)
      ⟨by simp, by simp⟩
    simpa [setStandbyBank_marks, hpending, htimer] using this

theorem takeBankSwap_tablesOk {s : State} (h : s.tables.Ok) : (takeBankSwap s).tables.Ok := by
  unfold takeBankSwap
  split
  · exact h
  next hbusy =>
    obtain ⟨hcopying, -, htimer⟩ := h.idle_marks hbusy
    split
    · exact h
    next hfaulted =>
      refine h.marks (swapPending := true) ⟨by simp [htimer, hcopying], fun _ => ?_⟩
      cases hstandby : s.tables.standby <;> simp_all

theorem TableStore.Ok.completeCopy {t : TableStore} (h : t.Ok) (htimer : t.copyTimer.isSome = true) :
    t.completeCopy.Ok := by
  have ⟨_, _, hcopying, hpending⟩ := h
  have hstandby := hcopying.mp htimer
  have hswap : t.swapPending = false := by
    by_contra hswap
    simpa [hstandby] using hpending (by simpa using hswap)
  have := h.setStandbyBank ((tableStoreOk_iff t).mp h).1.1 (standby := .clean) (swapPending := false)
    (copyTimer := none) ⟨by simp, by simp⟩
  simpa [TableStore.completeCopy, setStandbyBank_marks, hswap] using this

theorem TableStore.Ok.swapped {t : TableStore} (h : t.Ok) (hpending : t.swapPending = true) : t.swapped.Ok := by
  obtain ⟨ha, hb, hcopying, hswap⟩ := h
  refine ⟨ha, hb, ?_, by simp [TableStore.swapped]⟩
  have hidle : t.standby ≠ .copying := by rcases hswap hpending with h | h <;> simp [h]
  have htimer : ¬t.copyTimer.isSome = true := mt hcopying.mp hidle
  simpa [TableStore.swapped] using htimer

theorem TableStore.Ok.restarted {t : TableStore} (h : t.Ok) : t.restarted.Ok := by
  refine h.marks ⟨?_, by simp⟩
  split <;> simp_all

theorem TableStore.ok_reset : State.reset.tables.Ok := ⟨Bank.ok_empty, Bank.ok_empty, by decide, by decide⟩

theorem tickSwap_tablesOk {s : State} (h : s.tables.Ok) : (tickSwap s).tables.Ok := by
  unfold tickSwap
  split
  next hpending => exact h.swapped hpending
  · exact h

theorem tablesOk_dependsOn : DependsOn [.tables] fun s => s.tables.Ok := fun s t hagree hs => by
  have htables : t.tables = s.tables := hagree .tables (by simp)
  simpa only [htables] using hs

theorem tablesOk_secondKept : SecondKept fun s => s.tables.Ok where
  clock s := tablesOk_dependsOn.kept (tickClock_changes s) (by decide)
  ages s := tablesOk_dependsOn.kept (growAges_changes s) (by decide)
  slot s i := tablesOk_dependsOn.kept (tickSlot_changes i s) (by decide)
  dwells s := tablesOk_dependsOn.kept (onDisplay_changes tickDwells_changes s) (by decide)
  language s dwell _ := tablesOk_dependsOn.kept (onDisplay_changes (tickLanguage_changes dwell) s) (by decide)
  silence s := tablesOk_dependsOn.kept (tickSilence_changes s) (by decide)
  swap _ := tickSwap_tablesOk
  refresh s cycle := tablesOk_dependsOn.kept (onDisplay_changes (refreshPanels_changes cycle) s) (by decide)
  probes s := tablesOk_dependsOn.kept (onDisplay_changes (fun _ d => tickProbes_changes d) s) (by decide)

/-- The commands that reach the Table Store keep it sound. -/
theorem tablesOk_touched (c : Instr) (s t : State) (htouch : touches [.tables] c = true) (hc : elementary c = true)
    (hexec : exec c s = .next t) (h : s.tables.Ok) : t.tables.Ok := by
  cases c with
  | trunkCell | returnCell | characterArrival | cellAbandoned | setUnknownSetting | queryUnknownKind => cases hc
  | timebaseSecond =>
    obtain rfl := Host.Outcome.next.inj hexec
    exact tablesOk_secondKept.takeSecond h
  | swapApplied =>
    obtain rfl := Host.Outcome.next.inj hexec
    exact tickSwap_tablesOk h
  | tableLoad table index record =>
    obtain rfl := Host.Outcome.next.inj hexec
    exact takeTableLoad_tablesOk h table index record
  | bankCopy =>
    obtain rfl := Host.Outcome.next.inj hexec
    exact takeBankCopy_tablesOk h
  | bankCopyComplete =>
    obtain rfl := Host.Outcome.next.inj hexec
    split
    next htimer => exact h.completeCopy htimer
    · exact h
  | bankClear =>
    obtain rfl := Host.Outcome.next.inj hexec
    exact takeBankClear_tablesOk h
  | bankSwap =>
    obtain rfl := Host.Outcome.next.inj hexec
    exact takeBankSwap_tablesOk h
  | restart broadcast =>
    obtain rfl := Host.Outcome.next.inj hexec
    exact h.restarted
  | externalReset =>
    obtain rfl := Host.Outcome.next.inj hexec
    exact TableStore.ok_reset
  | _ => exact nomatch htouch

/-- Settles O9: the operations on the Table Store keep it sound, and no other command reaches it. -/
theorem everyStepKeepsTablesSound : Obligations.EveryStepKeepsTablesSound := fun _ _ hs hstep =>
  tablesOk_dependsOn.step (by decide)
    (fun s => tablesOk_dependsOn.kept (hearGood_changes s) (by decide)) tablesOk_touched hstep hs

end Sys2Proof.Machine

/-! An invariant kept with the help of others; the clock, the settings and the light in their ranges. -/

namespace Sys2Proof.Machine

open Claims

/-! ### Invariants kept together -/

/-- What keeps a property at every step. -/
structure StepKept (P : State → Prop) : Prop where
  port : PortKept P
  elementary : ElementaryKept P
  queue : ∀ s q, P s → P (s.withPending q)

theorem StepKept.step {P : State → Prop} (h : StepKept P) {s t : State} (hstep : step s = .next t) (hs : P s) : P t :=
  h.port.step h.elementary h.queue hstep hs

/-- A property that reads no part of the Trunk Port's queues and receivers is kept where one that is kept helps: at the
hearing of a good cell and at the elementary commands that touch what it reads. -/
theorem StepKept.and {parts : List Part} {P Q : State → Prop} (hP : StepKept P) (hQ : DependsOn parts Q)
    (hparts : ∀ part ∈ parts, part ∉ .pending :: portParts) (hear : ∀ s, P s → Q s → Q (hearGood s))
    (htouched : ∀ c s t, touches parts c = true → Machine.elementary c = true → Machine.exec c s = .next t → P s → Q s → Q t) :
    StepKept fun s => P s ∧ Q s where
  port := by
    have apart : ∀ part ∈ parts, part ∉ portParts := fun part hp hport => hparts part hp (List.mem_cons_of_mem _ hport)
    exact {
      refuse := fun s kind reason h =>
        ⟨hP.port.refuse s kind reason h.1, hQ.kept ((refuse_changes s kind reason).mono (by decide)) apart h.2⟩
      setReceiver := fun s lane rx h =>
        ⟨hP.port.setReceiver s lane rx h.1,
          hQ.kept ((setReceiver_changes s lane rx).mono (by cases lane <;> decide)) apart h.2⟩
      abandon := fun s lane rx h =>
        ⟨hP.port.abandon s lane rx h.1,
          hQ.kept ((abandonCell_changes lane rx s).mono (by cases lane <;> decide)) apart h.2⟩
      checkFailure := fun s h =>
        ⟨hP.port.checkFailure s h.1, hQ.kept ((countCheckFailure_changes s).mono (by decide)) apart h.2⟩
      hear := fun s h => ⟨hP.port.hear s h.1, hear s h.1 h.2⟩
      forward := fun s cell h =>
        ⟨hP.port.forward s cell h.1, hQ.kept ((forwardCell_changes cell s).mono (by decide)) apart h.2⟩
      judgeReturn := fun s cell h =>
        ⟨hP.port.judgeReturn s cell h.1, hQ.kept ((judgeReturn_changes cell s).mono (by decide)) apart h.2⟩ }
  elementary := fun c s t hc hexec h => by
    refine ⟨hP.elementary c s t hc hexec h.1, ?_⟩
    cases htouch : touches parts c with
    | false => exact hQ.untouched hc htouch hexec h.2
    | true => exact htouched c s t htouch hc hexec h.1 h.2
  queue := fun s q h =>
    ⟨hP.queue s q h.1, hQ.kept (withPending_changes s q) (fun part hp hq =>
      hparts part hp (List.mem_singleton.mp hq ▸ List.mem_cons_self)) h.2⟩

theorem stepKept_true : StepKept fun _ => True where
  port := ⟨fun _ _ _ => id, fun _ _ _ => id, fun _ _ _ => id, fun _ => id, fun _ => id, fun _ _ => id, fun _ _ => id⟩
  elementary := fun _ _ _ _ _ => id
  queue := fun _ _ => id

/-- The same for a property that needs no help. -/
theorem DependsOn.stepKept {parts : List Part} {Q : State → Prop} (hQ : DependsOn parts Q)
    (hparts : ∀ part ∈ parts, part ∉ .pending :: portParts) (hear : ∀ s, Q s → Q (hearGood s))
    (htouched : ∀ c s t, touches parts c = true → elementary c = true → Machine.exec c s = .next t → Q s → Q t) :
    StepKept Q := by
  simpa only [true_and] using
    stepKept_true.and hQ hparts (fun s _ => hear s) fun c s t htouch hc hexec _ => htouched c s t htouch hc hexec

/-! ### The clock in its ranges (R26, R27, R29 to R31) -/

theorem clockOk_dependsOn : DependsOn [.clock] fun s => s.clock.Ok := fun s t hagree hs => by
  have hclock : t.clock = s.clock := hagree .clock (by simp)
  simpa only [hclock] using hs

theorem StationClock.Ok.second {c : StationClock} (h : c.Ok) : (secondClock c).Ok := by
  obtain ⟨hvalue, hage, hunset, hheld⟩ := h
  have hage' := saturate_le 65535 c.age
  unfold secondClock
  dsimp only
  cases hstate : c.state with
  | unset => exact ⟨hvalue, hage', fun _ => hunset hstate, nofun⟩
  | held => exact ⟨hvalue, hage', nofun, fun _ => hheld hstate⟩
  | synced =>
    dsimp only
    split
    next hend => exact ⟨hvalue, hage', nofun, fun _ => le_antisymm hvalue hend⟩
    next hend =>
      refine ⟨Nat.lt_of_not_le hend, hage', ?_, ?_⟩ <;> dsimp only <;> split <;> nofun
  | drifting =>
    dsimp only
    split
    next hend => exact ⟨hvalue, hage', nofun, fun _ => le_antisymm hvalue hend⟩
    next hend => exact ⟨Nat.lt_of_not_le hend, hage', nofun, nofun⟩

theorem StationClock.Ok.pulsed {c : StationClock} (h : c.Ok) (hset : c.state ≠ .unset) : (pulsedClock c).Ok := by
  obtain ⟨hvalue, -, -, hheld⟩ := h
  unfold pulsedClock
  dsimp only
  split
  next hstate => exact ⟨hvalue, Nat.zero_le _, fun h => absurd h hset, hheld⟩
  · split
    · exact ⟨(Nat.sub_le _ _).trans hvalue, Nat.zero_le _, nofun, nofun⟩
    · split
      · exact ⟨le_refl _, Nat.zero_le _, nofun, fun _ => rfl⟩
      next hday => exact ⟨Nat.le_of_not_lt hday, Nat.zero_le _, nofun, nofun⟩

theorem tickClock_clock (s : State) : (tickClock s).clock = secondClock s.clock := by
  unfold tickClock
  dsimp only
  split
  · rfl
  · exact clockChange_changes _ _ .clock (by decide)

theorem takeTime_clock {second : Nat} {s : State} (h : second ≤ lastSecond) :
    (takeTime second s).clock = ⟨second, .synced, 0⟩ := by
  rw [takeTime, if_neg (Nat.not_lt_of_le h)]
  exact clockChange_changes _ _ .clock (by decide)

theorem takePulse_clockOk {s : State} (h : s.clock.Ok) : (takePulse s).clock.Ok := by
  unfold takePulse
  split
  · exact h
  next hset =>
    split
    · exact h
    · have hnew := h.pulsed hset
      dsimp only
      split
      · exact hnew
      · exact clockOk_dependsOn.kept (clockChange_changes _ _) (by decide) hnew

theorem StationClock.ok_reset : StationClock.reset.Ok := ⟨Nat.zero_le _, Nat.zero_le _, fun _ => rfl, nofun⟩

/-- The commands that reach the clock keep it in its ranges. -/
theorem clockOk_touched (c : Instr) (s t : State) (htouch : touches [.clock] c = true) (hc : elementary c = true)
    (hexec : exec c s = .next t) (h : s.clock.Ok) : t.clock.Ok := by
  have ticked : (tickClock s).clock.Ok := by rw [tickClock_clock]; exact h.second
  cases c with
  | trunkCell | returnCell | characterArrival | cellAbandoned | setUnknownSetting | queryUnknownKind => cases hc
  | time second =>
    obtain rfl := Host.Outcome.next.inj hexec
    by_cases hsecond : second ≤ lastSecond
    · rw [takeTime_clock hsecond]
      exact ⟨hsecond, Nat.zero_le _, nofun, nofun⟩
    · rw [takeTime, if_pos (Nat.lt_of_not_le hsecond)]
      exact h
  | minutePulse =>
    obtain rfl := Host.Outcome.next.inj hexec
    exact takePulse_clockOk h
  | timebaseSecond =>
    obtain rfl := Host.Outcome.next.inj hexec
    refine clockOk_dependsOn.kept ?_ (ps := boardParts ++ laterParts) (by decide) ticked
    exact ((growAges_changes _).mono (by decide)).trans ((takeSecond_after_ages s).mono (by decide))
  | clockDrifting =>
    obtain rfl := Host.Outcome.next.inj hexec
    split
    · exact ticked
    · exact h
  | restart broadcast =>
    obtain rfl := Host.Outcome.next.inj hexec
    exact StationClock.ok_reset
  | externalReset =>
    obtain rfl := Host.Outcome.next.inj hexec
    exact StationClock.ok_reset
  | _ => exact nomatch htouch

theorem clockOk_stepKept : StepKept fun s => s.clock.Ok :=
  clockOk_dependsOn.stepKept (by decide)
    (fun s => clockOk_dependsOn.kept (hearGood_changes s) (by decide)) clockOk_touched

/-! ### The settings in their ranges (R177, R178) -/

theorem settingsOk_dependsOn : DependsOn [.settings] fun s => s.settings.Ok := fun s t hagree hs => by
  have hsettings : t.mgmt.settings = s.mgmt.settings := hagree .settings (by simp)
  simpa only [State.settings, hsettings] using hs

theorem clampRange_inRange {lo hi : Nat} (h : lo ≤ hi) (v : Nat) : InRange lo hi (clampRange lo hi v) := by
  unfold InRange clampRange
  split
  · omega
  · split <;> omega

theorem clampRange_zero_le (hi v : Nat) : clampRange 0 hi v ≤ hi := (clampRange_inRange (Nat.zero_le hi) v).2

theorem clampOff_offOrIn {lo hi : Nat} (h : lo ≤ hi) (v : Nat) : OffOrIn lo hi (clampOff lo hi v) := by
  unfold clampOff
  split
  · exact .inl rfl
  · exact .inr (clampRange_inRange h v)

theorem clampRate_isRate (v : Nat) : IsRate (clampRate v) := by
  unfold IsRate clampRate
  split
  · exact .inr (.inr rfl)
  · split
    · exact .inr (.inl rfl)
    · exact .inl rfl

theorem clampFilter_inRange (v : Nat) : InRange 10 2550 (clampFilter v) ∧ clampFilter v % 10 = 0 := by
  refine ⟨clampRange_inRange (by decide) _, ?_⟩
  unfold clampFilter clampRange
  split
  · rfl
  · split <;> omega

@[simp] theorem noteClamp_settings (s : State) (carried written : Nat) :
    (s.noteClamp carried written).settings = s.settings := by
  unfold State.noteClamp
  split <;> rfl

/-- The settings of a contact in range keep the settings in range. -/
theorem Settings.Ok.contact {st : Settings} (h : st.Ok) (n : Fin 4) {f : ContactSettings → ContactSettings}
    (hf : ∀ c : ContactSettings, c.Ok → (f c).Ok) : ({ st with contacts := st.contacts.update n f } : Settings).Ok := by
  obtain ⟨hdeparture, hcancel, hstale, hcountdown, hdelay, hlanguage, hsilence, hrefresh, hrate, hhold, hfallback,
    hcontacts⟩ := h
  refine ⟨hdeparture, hcancel, hstale, hcountdown, hdelay, hlanguage, hsilence, hrefresh, hrate, hhold, hfallback,
    fun m => ?_⟩
  rw [Vec.get_update]
  split
  · exact hf _ (hcontacts m)
  · exact hcontacts m

/-- The fallback level written keeps the settings in range. -/
theorem Settings.Ok.withFallback {s : State} (h : s.settings.Ok) (v : Nat) :
    ((s.onSettings fun st => { st with fallbackLevel := clampRange 0 255 v }).noteClamp v
      (clampRange 0 255 v)).settings.Ok := by
  obtain ⟨hdeparture, hcancel, hstale, hcountdown, hdelay, hlanguage, hsilence, hrefresh, hrate, hhold, -, hcontacts⟩ := h
  rw [noteClamp_settings]
  exact ⟨hdeparture, hcancel, hstale, hcountdown, hdelay, hlanguage, hsilence, hrefresh, hrate, hhold,
    clampRange_zero_le _ v, hcontacts⟩

theorem Settings.ok_default : Settings.default.Ok := by
  refine ⟨by decide, by decide, .inr ⟨by decide, by decide⟩, ⟨by decide, by decide⟩, by decide, ⟨by decide, by decide⟩,
    .inr ⟨by decide, by decide⟩, .inr ⟨by decide, by decide⟩, fun b => ?_, ⟨by decide, by decide⟩, by decide, fun n => ?_⟩
  · cases b <;> exact .inr (.inl rfl)
  · unfold Settings.default
    rw [Vec.get_tabulate]
    refine ⟨⟨?_, ?_⟩, ?_, ?_⟩ <;> revert n <;> decide

/-- The commands that reach the settings keep them in their ranges. -/
theorem settingsOk_touched (c : Instr) (s t : State) (htouch : touches [.settings] c = true)
    (hc : elementary c = true) (hexec : exec c s = .next t) (h : s.settings.Ok) : t.settings.Ok := by
  have ⟨hdeparture, hcancel, hstale, hcountdown, hdelay, hlanguage, hsilence, hrefresh, hrate, hhold, hfallback,
    hcontacts⟩ := h
  have written {f : Settings → Settings} {v w : Nat} (hf : (f s.settings).Ok) :
      ((s.onSettings f).noteClamp v w).settings.Ok := by
    rw [noteClamp_settings]
    exact hf
  have rederived {u : State} (hu : u.settings.Ok) : (rederiveAll u).settings.Ok :=
    settingsOk_dependsOn.kept (rederiveAll_changes u) (by decide) hu
  have judged {u : State} (n : Fin 4) (hu : u.settings.Ok) : (judgeLevel n u).settings.Ok :=
    settingsOk_dependsOn.kept (judgeLevel_changes n u) (by decide) hu
  cases c with
  | trunkCell | returnCell | characterArrival | cellAbandoned | setUnknownSetting | queryUnknownKind => cases hc
  | setDepartureHold v =>
    obtain rfl := Host.Outcome.next.inj hexec
    exact written ⟨clampRange_zero_le _ v, hcancel, hstale, hcountdown, hdelay, hlanguage, hsilence,
      hrefresh, hrate, hhold, hfallback, hcontacts⟩
  | setCancelHold v =>
    obtain rfl := Host.Outcome.next.inj hexec
    exact written ⟨hdeparture, clampRange_zero_le _ v, hstale, hcountdown, hdelay, hlanguage, hsilence,
      hrefresh, hrate, hhold, hfallback, hcontacts⟩
  | setStalePeriod v =>
    obtain rfl := Host.Outcome.next.inj hexec
    exact rederived (written ⟨hdeparture, hcancel, clampOff_offOrIn (by decide) v, hcountdown, hdelay, hlanguage,
      hsilence, hrefresh, hrate, hhold, hfallback, hcontacts⟩)
  | setCountdownLimit v =>
    obtain rfl := Host.Outcome.next.inj hexec
    exact rederived (written ⟨hdeparture, hcancel, hstale, clampRange_inRange (by decide) v, hdelay, hlanguage,
      hsilence, hrefresh, hrate, hhold, hfallback, hcontacts⟩)
  | setDelayThreshold v =>
    obtain rfl := Host.Outcome.next.inj hexec
    exact rederived (written ⟨hdeparture, hcancel, hstale, hcountdown, clampRange_zero_le _ v, hlanguage,
      hsilence, hrefresh, hrate, hhold, hfallback, hcontacts⟩)
  | setLanguageDwell v =>
    obtain rfl := Host.Outcome.next.inj hexec
    exact written ⟨hdeparture, hcancel, hstale, hcountdown, hdelay, clampRange_inRange (by decide) v, hsilence,
      hrefresh, hrate, hhold, hfallback, hcontacts⟩
  | setSilenceLimit v =>
    obtain rfl := Host.Outcome.next.inj hexec
    exact written ⟨hdeparture, hcancel, hstale, hcountdown, hdelay, hlanguage, clampOff_offOrIn (by decide) v,
      hrefresh, hrate, hhold, hfallback, hcontacts⟩
  | setRefreshCycle v =>
    obtain rfl := Host.Outcome.next.inj hexec
    exact written ⟨hdeparture, hcancel, hstale, hcountdown, hdelay, hlanguage, hsilence,
      clampOff_offOrIn (by decide) v, hrate, hhold, hfallback, hcontacts⟩
  | setBusRate b v =>
    obtain rfl := Host.Outcome.next.inj hexec
    refine written ⟨hdeparture, hcancel, hstale, hcountdown, hdelay, hlanguage, hsilence, hrefresh, fun b' => ?_, hhold,
      hfallback, hcontacts⟩
    dsimp only
    rw [PerBus.get_set]
    split
    · exact clampRate_isRate v
    · exact hrate b'
  | setBusEnable b v =>
    obtain rfl := Host.Outcome.next.inj hexec
    exact settingsOk_dependsOn.kept (switchBus_changes b _ _ _) (by simp)
      (written ⟨hdeparture, hcancel, hstale, hcountdown, hdelay, hlanguage, hsilence, hrefresh, hrate, hhold, hfallback,
        hcontacts⟩)
  | setHoldLimit v =>
    obtain rfl := Host.Outcome.next.inj hexec
    exact written ⟨hdeparture, hcancel, hstale, hcountdown, hdelay, hlanguage, hsilence, hrefresh, hrate,
      clampRange_inRange (by decide) v, hfallback, hcontacts⟩
  | setSensorFallbackLevel v =>
    obtain rfl := Host.Outcome.next.inj hexec
    exact settingsOk_dependsOn.kept (refallAll_changes _) (by decide) (h.withFallback v)
  | setContactEnable n v =>
    obtain rfl := Host.Outcome.next.inj hexec
    exact settingsOk_dependsOn.kept (switchContact_changes n _ _ _) (by decide) (written (h.contact n fun _ hn => hn))
  | setContactMode n v =>
    obtain rfl := Host.Outcome.next.inj hexec
    exact judged n (written (h.contact n fun _ hn => hn))
  | setContactPolarity n v =>
    obtain rfl := Host.Outcome.next.inj hexec
    exact judged n (written (h.contact n fun _ hn => hn))
  | setContactFilter n v =>
    obtain rfl := Host.Outcome.next.inj hexec
    obtain ⟨hrange, hround⟩ := clampFilter_inRange v
    exact written (h.contact n fun _ hn => ⟨hrange, hround, hn.2.2⟩)
  | setContactPanelMask n v =>
    obtain rfl := Host.Outcome.next.inj hexec
    exact h.contact n fun _ hn => hn
  | setContactAlertString n v =>
    obtain rfl := Host.Outcome.next.inj hexec
    exact written (h.contact n fun _ hn => ⟨hn.1, hn.2.1, clampRange_zero_le _ v⟩)
  | externalReset =>
    obtain rfl := Host.Outcome.next.inj hexec
    exact Settings.ok_default
  | _ => exact nomatch htouch

theorem settingsOk_stepKept : StepKept fun s => s.settings.Ok :=
  settingsOk_dependsOn.stepKept (by decide)
    (fun s => settingsOk_dependsOn.kept (hearGood_changes s) (by decide)) settingsOk_touched

theorem tablesOk_stepKept : StepKept fun s => s.tables.Ok :=
  tablesOk_dependsOn.stepKept (by decide)
    (fun s => tablesOk_dependsOn.kept (hearGood_changes s) (by decide)) tablesOk_touched

/-! ### The light in its ranges (R156 to R160) -/

theorem lightOk_dependsOn : DependsOn [.sensors, .groups] LightOk := fun s t hagree hs => by
  have hsensors : t.light.sensors = s.light.sensors := hagree .sensors (by simp)
  have hgroups : t.light.groups = s.light.groups := hagree .groups (by simp)
  unfold LightOk at *
  rwa [hsensors, hgroups]

theorem Sensor.Ok.sample {x : Sensor} (h : x.Ok) {v : Nat} (hv : v ≤ 255) : (x.sample v).Ok := by
  obtain ⟨hacc, hlast, hrun, hseed⟩ := h
  have hfed : (if x.seeded then x.accumulator - x.accumulator / 8 + v else 8 * v) ≤ 2040 := by split <;> omega
  have run_lt : 0 < judgeRun := by decide
  unfold Sensor.sample
  cases hstate : x.state with
  | good =>
    dsimp only
    split
    · exact ⟨hfed, hv, run_lt, nofun⟩
    · split
      · exact ⟨hfed, hv, run_lt, nofun⟩
      next hshort => exact ⟨hfed, hv, Nat.lt_of_not_le hshort, nofun⟩
  | failed =>
    have hseeded : x.seeded ≠ false := fun h => by simpa [hstate] using (hseed h).1
    dsimp only
    split
    · exact ⟨hacc, hv, run_lt, fun h => absurd h hseeded⟩
    · split
      · exact ⟨by dsimp only; omega, hv, run_lt, nofun⟩
      next hshort => exact ⟨hacc, hv, Nat.lt_of_not_le hshort, fun h => absurd h hseeded⟩

/-- A level computed from a sound curve and a fallback level in range is in range (R158, R159). -/
theorem computedLevel_le {curve : Option (List (Nat × Nat))} {fallbackLevel : Nat} (x : Sensor)
    (hcurve : ∀ points, curve = some points → CurveOk points) (hfallback : fallbackLevel ≤ 255) :
    (computedLevel curve fallbackLevel x).level ≤ 255 := by
  unfold computedLevel
  split
  · exact hfallback
  next points =>
    split
    · obtain ⟨-, -, hrising, hbytes⟩ := hcurve points rfl
      exact curveLevel_le _ hrising fun p hp => (hbytes p hp).2
    · exact hfallback

theorem sampledGroup_le {curve : Option (List (Nat × Nat))} {fallbackLevel : Nat} {old new : Sensor} {g : Group}
    (hcurve : ∀ points, curve = some points → CurveOk points) (hfallback : fallbackLevel ≤ 255) (hg : g.level ≤ 255) :
    (sampledGroup curve fallbackLevel old new g).level ≤ 255 := by
  have hcomputed := computedLevel_le new hcurve hfallback
  unfold sampledGroup
  dsimp only
  split
  · unfold ordinaryLevel
    dsimp only
    split
    · exact hcomputed
    · split
      · exact hcomputed
      · exact hg
  · exact hcomputed

@[simp] theorem setGroup_light (s : State) (n : Fin 4) (g : Group) :
    (s.setGroup n g).light = { s.light with groups := s.light.groups.set n g } := by
  unfold State.setGroup
  dsimp only
  split <;> rfl

theorem LightOk.setGroup {s : State} (h : LightOk s) (n : Fin 4) {g : Group} (hg : g.level ≤ 255) :
    LightOk (s.setGroup n g) := by
  obtain ⟨hsensors, hgroups⟩ := h
  refine ⟨fun m => ?_, fun m => ?_⟩
  · rw [setGroup_light]
    exact hsensors m
  · rw [setGroup_light]
    dsimp only
    rw [Vec.get_set]
    split
    · exact hg
    · exact hgroups m

/-- The curve of the active bank is sound (R56). -/
theorem TableStore.Ok.curve {t : TableStore} (h : t.Ok) :
    ∀ points, t.activeBank.curve = some points → CurveOk points :=
  ((tableStoreOk_iff t).mp h).1.1.2.2.2.2.2.2.2.2.2.2.1

theorem Settings.Ok.fallback {st : Settings} (h : st.Ok) : st.fallbackLevel ≤ 255 := h.2.2.2.2.2.2.2.2.2.2.1

theorem LightOk.takeSample {s : State} (h : LightOk s) (hset : s.settings.Ok) (htab : s.tables.Ok) (n : Fin 4) {v : Nat}
    (hv : v ≤ 255) : LightOk (takeSample n v s) := by
  obtain ⟨hsensors, hgroups⟩ := h
  have hsampled : LightOk { s with light := { s.light with
      sensors := s.light.sensors.set n ((s.light.sensors.get n).sample v) } } := by
    refine ⟨fun m => ?_, hgroups⟩
    dsimp only
    rw [Vec.get_set]
    split
    · exact (hsensors n).sample hv
    · exact hsensors m
  exact hsampled.setGroup n (sampledGroup_le htab.curve hset.fallback (hgroups n))

theorem refallGroup_changes (n : Fin 4) (s : State) : OnlyChanges [.groups, .panels] s (refallGroup n s) := by
  unfold refallGroup
  dsimp only
  split
  · exact setGroup_changes s n _
  · exact OnlyChanges.refl _ s

theorem LightOk.refallGroup {s : State} (h : LightOk s) (hset : s.settings.Ok) (htab : s.tables.Ok) (n : Fin 4) :
    LightOk (refallGroup n s) := by
  unfold Machine.refallGroup
  dsimp only
  split
  · exact h.setGroup n (computedLevel_le _ htab.curve hset.fallback)
  · exact h

/-- What the light's operations keep: the settings and the tables with it. -/
def LitOk (s : State) : Prop := (s.settings.Ok ∧ s.tables.Ok) ∧ LightOk s

theorem settingsTables_dependsOn : DependsOn [.settings, .tables] fun s => s.settings.Ok ∧ s.tables.Ok :=
  settingsOk_dependsOn.and tablesOk_dependsOn

theorem litOk_dependsOn : DependsOn [.settings, .tables, .sensors, .groups] LitOk :=
  settingsTables_dependsOn.and lightOk_dependsOn

theorem LitOk.takeSample {s : State} (h : LitOk s) (n : Fin 4) {v : Nat} (hv : v ≤ 255) : LitOk (takeSample n v s) :=
  ⟨settingsTables_dependsOn.kept (takeSample_changes n v s) (by decide) h.1, h.2.takeSample h.1.1 h.1.2 n hv⟩

theorem LitOk.refallAll {s : State} (h : LitOk s) : LitOk (refallAll s) :=
  List.foldlRecOn _ _ h fun u hu n _ => ⟨settingsTables_dependsOn.kept (refallGroup_changes n u) (by decide) hu.1,
    hu.2.refallGroup hu.1.1 hu.1.2 n⟩

theorem LitOk.tickSwap {s : State} (h : LitOk s) : LightOk (tickSwap s) := by
  have htab := tickSwap_tablesOk h.1.2
  unfold Machine.tickSwap at *
  split at htab
  next hpending =>
    rw [if_pos hpending]
    refine ⟨h.2.1, fun n => ?_⟩
    show ((s.light.remap s.tables.swapped.activeBank.curve s.settings.fallbackLevel).groups.get n).level ≤ 255
    rw [LightUnit.remap, Vec.get_tabulate]
    exact computedLevel_le _ htab.curve h.1.1.fallback
  next hpending =>
    rw [if_neg hpending]
    exact h.2

theorem LightUnit.reset_ok {s : State} {level : Nat} (hlight : s.light = LightUnit.reset level) (hlevel : level ≤ 255) :
    LightOk s := by
  refine ⟨fun n => ?_, fun n => ?_⟩
  · rw [hlight, LightUnit.reset, Vec.get_fill]
    exact ⟨Nat.zero_le _, Nat.zero_le _, by decide, fun _ => ⟨rfl, rfl⟩⟩
  · rw [hlight, LightUnit.reset, Vec.get_fill]
    exact hlevel

/-- Of a second's stages, only the swap reaches the light. -/
theorem takeSecond_light (s : State) (h : LitOk s) : LightOk (takeSecond s) := by
  have stage {ps : List Part} {u v : State} (hframe : OnlyChanges ps u v)
      (hps : ∀ part ∈ [Part.settings, .tables, .sensors, .groups], part ∉ ps) : LitOk u → LitOk v :=
    litOk_dependsOn.kept hframe hps
  refine (SecondKept.takeSecond (P := LitOk) ?_ h).2
  exact {
    clock := fun u => stage (tickClock_changes u) (by decide)
    ages := fun u => stage (growAges_changes u) (by decide)
    slot := fun u i => stage (tickSlot_changes i u) (by decide)
    dwells := fun u => stage (onDisplay_changes tickDwells_changes u) (by decide)
    language := fun u dwell _ => stage (onDisplay_changes (tickLanguage_changes dwell) u) (by decide)
    silence := fun u => stage (tickSilence_changes u) (by decide)
    swap := fun u hu =>
      ⟨⟨settingsOk_dependsOn.kept (tickSwap_changes u) (by decide) hu.1.1, tickSwap_tablesOk hu.1.2⟩, hu.tickSwap⟩
    refresh := fun u cycle => stage (onDisplay_changes (refreshPanels_changes cycle) u) (by decide)
    probes := fun u => stage (onDisplay_changes (fun _ d => tickProbes_changes d) u) (by decide) }

/-- The commands that reach the light keep it in its ranges. -/
theorem lightOk_touched (c : Instr) (s t : State) (htouch : touches [.sensors, .groups] c = true)
    (hc : elementary c = true) (hexec : exec c s = .next t) (h : s.settings.Ok ∧ s.tables.Ok) (hlight : LightOk s) :
    LightOk t := by
  have hlit : LitOk s := ⟨h, hlight⟩
  have byte (v : Byte) : v.toNat ≤ 255 := Nat.le_of_lt_succ v.isLt
  cases c with
  | trunkCell | returnCell | characterArrival | cellAbandoned | setUnknownSetting | queryUnknownKind => cases hc
  | timebaseSecond =>
    obtain rfl := Host.Outcome.next.inj hexec
    exact takeSecond_light s hlit
  | swapApplied =>
    obtain rfl := Host.Outcome.next.inj hexec
    exact hlit.tickSwap
  | setSensorFallbackLevel v =>
    obtain rfl := Host.Outcome.next.inj hexec
    refine (LitOk.refallAll ⟨⟨h.1.withFallback v, ?_⟩, ?_⟩).2
    · exact tablesOk_dependsOn.kept (setting_changes s _ v _) (by decide) h.2
    · exact lightOk_dependsOn.kept (setting_changes s _ v _) (by decide) hlight
  | lightSample s0 s1 s2 s3 =>
    obtain rfl := Host.Outcome.next.inj hexec
    exact ((((hlit.takeSample 0 (byte s0)).takeSample 1 (byte s1)).takeSample 2 (byte s2)).takeSample 3 (byte s3)).2
  | sensorFailed n =>
    obtain rfl := Host.Outcome.next.inj hexec
    split
    · exact (hlit.takeSample n (le_refl _)).2
    · exact hlight
  | sensorRestored n v =>
    obtain rfl := Host.Outcome.next.inj hexec
    split
    · exact (hlit.takeSample n (byte v)).2
    · exact hlight
  | restart broadcast =>
    obtain rfl := Host.Outcome.next.inj hexec
    exact LightUnit.reset_ok rfl h.1.fallback
  | externalReset =>
    obtain rfl := Host.Outcome.next.inj hexec
    exact LightUnit.reset_ok rfl Settings.ok_default.fallback
  | _ => exact nomatch htouch

theorem settingsTables_stepKept : StepKept fun s => s.settings.Ok ∧ s.tables.Ok :=
  settingsOk_stepKept.and tablesOk_dependsOn (by decide)
    (fun s _ => tablesOk_dependsOn.kept (hearGood_changes s) (by decide))
    fun c s t htouch hc hexec _ => tablesOk_touched c s t htouch hc hexec

theorem litOk_stepKept : StepKept LitOk :=
  settingsTables_stepKept.and lightOk_dependsOn (by decide)
    (fun s _ => lightOk_dependsOn.kept (hearGood_changes s) (by decide)) lightOk_touched

/-- Settles O7: the clock alone, the settings alone, and the light with the settings and the tables. -/
theorem everyStepKeepsClockSettingsAndLightInRange : Obligations.EveryStepKeepsClockSettingsAndLightInRange :=
  fun _ _ hclock hsettings htables hlight hstep =>
    have hlit := litOk_stepKept.step hstep ⟨⟨hsettings, htables⟩, hlight⟩
    ⟨clockOk_stepKept.step hstep hclock, hlit.1.1, hlit.2⟩

end Sys2Proof.Machine

/-! Slots and contacts: what each operation keeps of their agreement. -/

namespace Sys2Proof.Machine

open Claims

/-! ### Slots and latches in agreement (R106, R109) -/

/-- The slot that a contact's latch calls for (R106). -/
def SlotMatches : Option Alert → Slot → Prop
  | some a, slot => slot = .locked (alertRecord a)
  | none, slot => slot.isLocked = false

/-- A slot has a second left, at least, where it has a duration at all (R109). -/
def Slot.Lasts (slot : Slot) : Prop := ∀ r left, slot = .active r (some left) → 1 ≤ left

/-- The slots agree with the contacts' latches. -/
def SlotsAgree (slots : Vec Slot 8) (contacts : Vec Contact 4) : Prop :=
  (∀ i : Fin 8, i.val < 4 → (slots.get i).isLocked = false) ∧ (∀ i : Fin 8, (slots.get i).Lasts) ∧
    ∀ n : Fin 4, SlotMatches (contacts.get n).latch (slots.get (contactSlot n))

theorem slotsOk_iff (s : State) : SlotsOk s ↔ SlotsAgree s.slots s.contacts := by
  have hmatch (n : Fin 4) : (match (s.contacts.get n).latch with
      | some a => s.slots.get (contactSlot n) = .locked (alertRecord a)
      | none => (s.slots.get (contactSlot n)).isLocked = false) ↔
      SlotMatches (s.contacts.get n).latch (s.slots.get (contactSlot n)) := by
    cases (s.contacts.get n).latch <;> exact Iff.rfl
  exact and_congr_right' (and_congr_right' (forall_congr' hmatch))

theorem contactSlot_inj {n m : Fin 4} : contactSlot n = contactSlot m ↔ n = m := by
  simp [contactSlot, Fin.ext_iff]

/-- A slot that is not LOCKED filled or freed. -/
theorem SlotsAgree.set {slots : Vec Slot 8} {contacts : Vec Contact 4} (h : SlotsAgree slots contacts) {i : Fin 8}
    (hopen : (slots.get i).isLocked = false) {slot : Slot} (hslot : slot.isLocked = false) (hlasts : slot.Lasts) :
    SlotsAgree (slots.set i slot) contacts := by
  obtain ⟨hplain, hleft, hlatch⟩ := h
  refine ⟨fun j hj => ?_, fun j => ?_, fun n => ?_⟩
  · rw [Vec.get_set]
    split
    · exact hslot
    · exact hplain j hj
  · rw [Vec.get_set]
    split
    · exact hlasts
    · exact hleft j
  · rw [Vec.get_set]
    split
    next heq =>
      have hn := hlatch n
      rw [← heq] at hn
      cases hl : (contacts.get n).latch with
      | none => exact hslot
      | some a =>
        rw [hl] at hn
        simp [show slots.get i = .locked (alertRecord a) from hn, Slot.isLocked] at hopen
    · exact hlatch n

/-- A contact changed but for its latch. -/
theorem SlotsAgree.update {slots : Vec Slot 8} {contacts : Vec Contact 4} (h : SlotsAgree slots contacts) {n : Fin 4}
    {f : Contact → Contact} (hf : ∀ c, (f c).latch = c.latch) : SlotsAgree slots (contacts.update n f) := by
  obtain ⟨hplain, hleft, hlatch⟩ := h
  refine ⟨hplain, hleft, fun m => ?_⟩
  rw [Vec.get_update]
  split
  · rw [hf]
    exact hlatch m
  · exact hlatch m

/-- A contact's latch set or cleared together with its slot. -/
theorem SlotsAgree.latch {slots : Vec Slot 8} {contacts : Vec Contact 4} (h : SlotsAgree slots contacts) {n : Fin 4}
    {f : Contact → Contact} {slot : Slot} (hslot : SlotMatches (f (contacts.get n)).latch slot) (hlasts : slot.Lasts) :
    SlotsAgree (slots.set (contactSlot n) slot) (contacts.update n f) := by
  obtain ⟨hplain, hleft, hlatch⟩ := h
  refine ⟨fun j hj => ?_, fun j => ?_, fun m => ?_⟩
  · have hne : contactSlot n ≠ j := fun heq => by
      have := congrArg Fin.val heq
      simp only [contactSlot] at this
      omega
    rw [Vec.get_set_of_ne _ hne]
    exact hplain j hj
  · rw [Vec.get_set]
    split
    · exact hlasts
    · exact hleft j
  · rw [Vec.get_set, Vec.get_update]
    simp only [contactSlot_inj]
    split
    next heq => exact heq ▸ hslot
    · exact hlatch m

/-! ### Contacts in agreement with their settings (R112, R113, R117) -/

/-- A contact's timers, state and latch agree with each other and with its enable. -/
def Contact.Ok (enable : Bool) (c : Contact) : Prop :=
  (c.filterTimer.isSome = true ↔ c.raw ≠ c.filtered) ∧ (c.settlingTimer.isSome = true ↔ c.state = .settling) ∧
    (c.state = .disabled ↔ enable = false) ∧ (c.latch.isSome = true → c.state = .watching)

theorem contactsOk_iff (s : State) :
    ContactsOk s ↔ ∀ n : Fin 4, (s.contacts.get n).Ok (s.settings.contacts.get n).enable := Iff.rfl

theorem Contact.Ok.changeRaw {enable : Bool} {c : Contact} (h : c.Ok enable) (filterTime : Nat) (level : Level) :
    (c.changeRaw filterTime level).Ok enable := by
  obtain ⟨hfilter, hsettling, hstate, hlatch⟩ := h
  unfold Contact.changeRaw
  split
  · exact ⟨hfilter, hsettling, hstate, hlatch⟩
  · refine ⟨?_, hsettling, hstate, hlatch⟩
    by_cases hback : level = c.filtered <;> simp [hback]

/-! ### The operations on slots and contacts -/

/-- Slots and contacts agree. -/
def AlertsOk (s : State) : Prop := SlotsOk s ∧ ContactsOk s

theorem alertsOk_dependsOn : DependsOn [.slots, .contacts, .settings] AlertsOk := fun s t hagree hs => by
  have hslots : t.slots = s.slots := hagree .slots (by simp)
  have hcontacts : t.contacts = s.contacts := hagree .contacts (by simp)
  have hsettings : t.mgmt.settings = s.mgmt.settings := hagree .settings (by simp)
  obtain ⟨hs, hc⟩ := hs
  refine ⟨(slotsOk_iff t).mpr ?_, (contactsOk_iff t).mpr fun n => ?_⟩
  · rw [hslots, hcontacts]
    exact (slotsOk_iff s).mp hs
  · rw [State.settings, hcontacts, hsettings]
    exact hc n

/-- A slot that is not LOCKED filled or freed. -/
theorem AlertsOk.setSlot {s : State} (h : AlertsOk s) {i : Fin 8} (hopen : (s.slots.get i).isLocked = false)
    {slot : Slot} (hslot : slot.isLocked = false) (hlasts : slot.Lasts) (newText : Bool) :
    AlertsOk (s.setSlot i slot newText) :=
  ⟨(slotsOk_iff _).mpr (((slotsOk_iff s).mp h.1).set hopen hslot hlasts), h.2⟩

/-- A contact changed but for its latch. -/
theorem AlertsOk.onContact {s : State} (hslots : SlotsOk s) {n : Fin 4} {f : Contact → Contact}
    (hf : ∀ c, (f c).latch = c.latch) (hok : (f (s.contacts.get n)).Ok (s.settings.contacts.get n).enable)
    (hothers : ∀ m, n ≠ m → (s.contacts.get m).Ok (s.settings.contacts.get m).enable) : AlertsOk (s.onContact n f) := by
  refine ⟨(slotsOk_iff _).mpr (((slotsOk_iff s).mp hslots).update hf), fun m => ?_⟩
  show ((s.contacts.update n f).get m).Ok (s.settings.contacts.get m).enable
  rw [Vec.get_update]
  split
  next heq => exact heq ▸ hok
  next hne => exact hothers m hne

theorem Slot.lasts_free : Slot.free.Lasts := nofun

theorem Slot.lasts_locked (r : MessageRecord) : (Slot.locked r).Lasts := nofun

/-- A WATCHING contact raises its alert. -/
theorem AlertsOk.raiseAlert {s : State} (h : AlertsOk s) {n : Fin 4} (hstate : (s.contacts.get n).state = .watching) :
    AlertsOk (raiseAlert n s) := by
  refine ⟨(slotsOk_iff _).mpr (((slotsOk_iff s).mp h.1).latch rfl (Slot.lasts_locked _)), fun m => ?_⟩
  show ((s.contacts.update n _).get m).Ok (s.settings.contacts.get m).enable
  rw [Vec.get_update]
  split
  next heq =>
    subst heq
    obtain ⟨hfilter, hsettling, hdisabled, -⟩ := h.2 n
    exact ⟨hfilter, hsettling, hdisabled, fun _ => hstate⟩
  · exact h.2 m

/-- A contact's alert is cleared. -/
theorem AlertsOk.clearAlert {s : State} (hslots : SlotsOk s) {n : Fin 4}
    (hok : ({ s.contacts.get n with latch := none } : Contact).Ok (s.settings.contacts.get n).enable)
    (hothers : ∀ m, n ≠ m → (s.contacts.get m).Ok (s.settings.contacts.get m).enable) : AlertsOk (clearAlert n s) := by
  refine ⟨(slotsOk_iff _).mpr (((slotsOk_iff s).mp hslots).latch rfl Slot.lasts_free), fun m => ?_⟩
  show ((s.contacts.update n _).get m).Ok (s.settings.contacts.get m).enable
  rw [Vec.get_update]
  split
  next heq => exact heq ▸ hok
  next hne => exact hothers m hne

theorem AlertsOk.judgeLevel {s : State} (h : AlertsOk s) (n : Fin 4) : AlertsOk (judgeLevel n s) := by
  unfold Machine.judgeLevel
  split
  next hraise => exact h.raiseAlert hraise.1
  · exact h

theorem AlertsOk.expireFilter {s : State} (h : AlertsOk s) (n : Fin 4) : AlertsOk (expireFilter n s) := by
  obtain ⟨-, hsettling, hdisabled, hlatch⟩ := h.2 n
  have filtered : AlertsOk (s.onContact n fun c => { c with filtered := c.raw, filterTimer := none }) :=
    AlertsOk.onContact h.1 (fun _ => rfl) ⟨by simp, hsettling, hdisabled, hlatch⟩ fun m _ => h.2 m
  unfold Machine.expireFilter
  dsimp only
  split
  · exact h
  · split
    next hraise =>
      obtain ⟨-, hstate, -⟩ := hraise
      exact filtered.raiseAlert (by rw [State.onContact_contacts, Vec.get_update_self]; exact hstate)
    · exact filtered

theorem AlertsOk.expireSettling {s : State} (h : AlertsOk s) (n : Fin 4) : AlertsOk (expireSettling n s) := by
  obtain ⟨hfilter, hsettling, hdisabled, -⟩ := h.2 n
  unfold Machine.expireSettling
  split
  · exact h
  next htimer =>
    have hstate := hsettling.mp (by rw [htimer]; rfl)
    have hwatching : ({ s.contacts.get n with state := .watching, settlingTimer := none } : Contact).Ok
        (s.settings.contacts.get n).enable := ⟨hfilter, by simp, by simpa [hstate] using hdisabled, fun _ => rfl⟩
    refine AlertsOk.judgeLevel (AlertsOk.onContact h.1 ?_ hwatching fun m _ => h.2 m) n
    exact fun _ => rfl

theorem AlertsOk.takeAckAlert {s : State} (h : AlertsOk s) (contact : Nat) : AlertsOk (takeAckAlert contact s) := by
  unfold Machine.takeAckAlert
  split
  · exact h
  next n _ =>
    split
    · exact h
    · split
      · exact h
      · obtain ⟨hfilter, hsettling, hdisabled, -⟩ := h.2 n
        exact AlertsOk.clearAlert h.1 ⟨hfilter, hsettling, hdisabled, nofun⟩ fun m _ => h.2 m

theorem checkMessage_open {b : MessageBody} {slots : Vec Slot 8} {i : Fin 8} {record : MessageRecord}
    (h : checkMessage b slots = .ok (i, record)) : (slots.get i).isLocked = false := by
  unfold checkMessage at h
  split at h
  · split at h
    · cases h
    · split at h
      · cases h
      · split at h
        · cases h
        next hopen =>
          obtain ⟨rfl, -⟩ := Prod.mk.inj (Except.ok.inj h)
          exact Bool.eq_false_iff.mpr hopen
  · cases h

theorem AlertsOk.takeMessage {s : State} (h : AlertsOk s) (b : MessageBody) : AlertsOk (takeMessage b s) := by
  unfold Machine.takeMessage
  split
  next i record hcheck =>
    refine h.setSlot (checkMessage_open hcheck) rfl (fun r left hslot => ?_) true
    obtain ⟨-, hleft⟩ := Slot.active.inj hslot
    split at hleft
    · cases hleft
    next hne =>
      obtain rfl := Option.some.inj hleft
      exact Nat.one_le_iff_ne_zero.mpr hne
  · exact h

theorem AlertsOk.takeMessageEnd {s : State} (h : AlertsOk s) (slot : Nat) : AlertsOk (takeMessageEnd slot s) := by
  unfold Machine.takeMessageEnd
  split
  · exact h
  · split
    next hslot => exact h.setSlot (by rw [hslot]; rfl) rfl Slot.lasts_free false
    · exact h
    · exact h

theorem AlertsOk.tickSlot {s : State} (h : AlertsOk s) (i : Fin 8) : AlertsOk (tickSlot i s) := by
  unfold Machine.tickSlot
  split
  next hslot =>
    have hopen : (s.slots.get i).isLocked = false := by rw [hslot]; rfl
    split
    · exact h.setSlot hopen rfl Slot.lasts_free false
    next hlast =>
      refine ⟨(slotsOk_iff _).mpr (((slotsOk_iff s).mp h.1).set hopen rfl fun r left heq => ?_), h.2⟩
      obtain ⟨-, hleft⟩ := Slot.active.inj heq
      have := Option.some.inj hleft
      omega
  · exact h
  · exact h
  · exact h

/-- The settings written, but for the contacts' enables. -/
theorem AlertsOk.setting {s : State} (h : AlertsOk s) {f : Settings → Settings}
    (hf : ∀ n, ((f s.settings).contacts.get n).enable = (s.settings.contacts.get n).enable) (v w : Nat) :
    AlertsOk ((s.onSettings f).noteClamp v w) := by
  have written : AlertsOk (s.onSettings f) := ⟨h.1, fun n => by
    show (s.contacts.get n).Ok ((f s.settings).contacts.get n).enable
    rw [hf n]
    exact h.2 n⟩
  exact alertsOk_dependsOn.kept (noteClamp_changes _ v w) (by decide) written

theorem AlertsOk.setFallback {s : State} (h : AlertsOk s) (v : Nat) : AlertsOk (setSensorFallbackLevel v s) := by
  unfold setSensorFallbackLevel
  have written := h.setting (f := fun st => { st with fallbackLevel := clampRange 0 255 v }) (fun _ => rfl) v
    (clampRange 0 255 v)
  exact alertsOk_dependsOn.kept (refallAll_changes _) (by decide) written

/-- A contact's settings written, but for its enable. -/
theorem AlertsOk.contactSetting {s : State} (h : AlertsOk s) (n : Fin 4) {f : ContactSettings → ContactSettings}
    (hf : ∀ c, (f c).enable = c.enable) (v w : Nat) : AlertsOk ((s.onContactSettings n f).noteClamp v w) :=
  h.setting (fun m => by
    dsimp only
    rw [Vec.get_update]
    split
    · exact hf _
    · rfl) v w

/-- A contact's enable: held, enabling, or disabling with a set latch cleared (R113). -/
theorem AlertsOk.setContactEnable {s : State} (h : AlertsOk s) (n : Fin 4) (v : Nat) :
    AlertsOk (setContactEnable n v s) := by
  unfold Machine.setContactEnable
  generalize hon : decide (clampChoice v = 1) = on
  generalize hu : (s.onContactSettings n fun c => { c with enable := on }).noteClamp v (clampChoice v) = u
  have hslots : u.slots = s.slots := hu ▸ noteClamp_changes _ _ _ .slots (by decide)
  have hcontacts : u.contacts = s.contacts := hu ▸ noteClamp_changes _ _ _ .contacts (by decide)
  have hsettings : u.settings.contacts = s.settings.contacts.update n fun c => { c with enable := on } := by
    rw [← hu, noteClamp_settings]
    rfl
  have hagree : SlotsOk u := (slotsOk_iff u).mpr (by rw [hslots, hcontacts]; exact (slotsOk_iff s).mp h.1)
  have hself : (u.settings.contacts.get n).enable = on := by rw [hsettings, Vec.get_update_self]
  have hothers : ∀ m, n ≠ m → (u.contacts.get m).Ok (u.settings.contacts.get m).enable := fun m hne => by
    rw [hcontacts, hsettings, Vec.get_update, if_neg hne]
    exact h.2 m
  obtain ⟨hfilter, hsettling, hdisabled, hlatch⟩ := h.2 n
  unfold switchContact
  dsimp only
  split
  next hheld =>
    refine ⟨hagree, fun m => ?_⟩
    by_cases hm : n = m
    · subst hm
      show (u.contacts.get n).Ok (u.settings.contacts.get n).enable
      rw [hself, hcontacts, ← hheld]
      exact h.2 n
    · exact hothers m hm
  next hchanged =>
    split
    next hturned =>
      have hoff : (s.contacts.get n).state = .disabled := hdisabled.mpr (by
        cases henable : (s.settings.contacts.get n).enable <;> simp_all)
      refine AlertsOk.judgeLevel (AlertsOk.onContact hagree ?_ ?_ hothers) n
      · exact fun _ => rfl
      rw [hself, hcontacts]
      exact ⟨hfilter, by simpa [hoff] using hsettling, by simp [hturned], fun _ => rfl⟩
    next hturned =>
      have hoff : on = false := Bool.eq_false_iff.mpr hturned
      have hothers' : ∀ m, n ≠ m →
          ((u.contacts.update n fun c => { c with state := .disabled, settlingTimer := none }).get m).Ok
            (u.settings.contacts.get m).enable := fun m hne => by
        rw [Vec.get_update, if_neg hne]
        exact hothers m hne
      split
      · refine AlertsOk.clearAlert ((slotsOk_iff _).mpr (((slotsOk_iff u).mp hagree).update ?_)) ?_ hothers'
        · exact fun _ => rfl
        show Contact.Ok (u.settings.contacts.get n).enable _
        rw [hself, State.onContact_contacts, Vec.get_update_self, hcontacts]
        exact ⟨hfilter, by simp, by simp [hoff], nofun⟩
      next hclear =>
        refine AlertsOk.onContact hagree (fun _ => rfl) ?_ hothers
        rw [hself, hcontacts]
        exact ⟨hfilter, by simp, by simp [hoff], fun hset => absurd (hcontacts ▸ hset) hclear⟩

/-! ### Every step -/

theorem alertsOk_secondKept : SecondKept AlertsOk where
  clock s := alertsOk_dependsOn.kept (tickClock_changes s) (by decide)
  ages s := alertsOk_dependsOn.kept (growAges_changes s) (by decide)
  slot _ i h := h.tickSlot i
  dwells s := alertsOk_dependsOn.kept (onDisplay_changes tickDwells_changes s) (by decide)
  language s dwell _ := alertsOk_dependsOn.kept (onDisplay_changes (tickLanguage_changes dwell) s) (by decide)
  silence s := alertsOk_dependsOn.kept (tickSilence_changes s) (by decide)
  swap s := alertsOk_dependsOn.kept (tickSwap_changes s) (by decide)
  refresh s cycle := alertsOk_dependsOn.kept (onDisplay_changes (refreshPanels_changes cycle) s) (by decide)
  probes s := alertsOk_dependsOn.kept (onDisplay_changes (fun _ d => tickProbes_changes d) s) (by decide)

/-- Free slots and clear latches agree. -/
theorem slotsAgree_cleared {contacts : Vec Contact 4} (h : ∀ n, (contacts.get n).latch = none) :
    SlotsAgree (Vec.fill 8 Slot.free) contacts := by
  refine ⟨fun i _ => ?_, fun i => ?_, fun n => ?_⟩
  · rw [Vec.get_fill]; rfl
  · rw [Vec.get_fill]; exact Slot.lasts_free
  · rw [h n, Vec.get_fill]; rfl

theorem AlertsOk.takeRestart {s : State} (h : AlertsOk s) (broadcast : Bool) : AlertsOk (takeRestart broadcast s) := by
  refine ⟨(slotsOk_iff _).mpr (slotsAgree_cleared fun n => ?_), fun n => ?_⟩
  · exact congrArg Contact.latch (Vec.get_mapIdx _ s.contacts n)
  · show ((s.contacts.mapIdx fun n c => Contact.restarted (s.settings.contacts.get n) c).get n).Ok
      (s.settings.contacts.get n).enable
    rw [Vec.get_mapIdx]
    obtain ⟨hfilter, -⟩ := h.2 n
    cases henable : (s.settings.contacts.get n).enable <;>
      exact ⟨hfilter, by simp [Contact.restarted, henable], by simp [Contact.restarted, henable], nofun⟩

theorem alertsOk_externalReset (s : State) : AlertsOk (takeExternalReset s) := by
  refine ⟨(slotsOk_iff _).mpr (slotsAgree_cleared fun n => ?_), fun n => ?_⟩
  · exact congrArg Contact.latch (Vec.get_mapIdx _ s.contacts n)
  · show ((s.contacts.mapIdx fun _ c => Contact.reset c.raw).get n).Ok (Settings.default.contacts.get n).enable
    rw [Vec.get_mapIdx, Settings.default, Vec.get_tabulate]
    exact ⟨by simp [Contact.reset], by simp [Contact.reset], by simp [Contact.reset, ContactSettings.default], nofun⟩

/-- The commands that reach the slots, the contacts or the settings keep them in agreement. -/
theorem alertsOk_touched (c : Instr) (s t : State) (htouch : touches [.slots, .contacts, .settings] c = true)
    (hc : elementary c = true) (hexec : exec c s = .next t) (h : AlertsOk s) : AlertsOk t := by
  have rederived {u : State} (hu : AlertsOk u) : AlertsOk (rederiveAll u) :=
    alertsOk_dependsOn.kept (rederiveAll_changes u) (by decide) hu
  cases c with
  | trunkCell | returnCell | characterArrival | cellAbandoned | setUnknownSetting | queryUnknownKind => cases hc
  | timebaseSecond =>
    obtain rfl := Host.Outcome.next.inj hexec
    exact alertsOk_secondKept.takeSecond h
  | messageDurationExpiry i =>
    obtain rfl := Host.Outcome.next.inj hexec
    split
    · exact h.tickSlot i
    · exact h
  | message b =>
    obtain rfl := Host.Outcome.next.inj hexec
    exact h.takeMessage b
  | messageEnd slot =>
    obtain rfl := Host.Outcome.next.inj hexec
    exact h.takeMessageEnd slot
  | contactChange n level =>
    obtain rfl := Host.Outcome.next.inj hexec
    refine AlertsOk.onContact h.1 (fun c => ?_) (Contact.Ok.changeRaw (h.2 n) _ level) fun m _ => h.2 m
    unfold Contact.changeRaw
    split <;> rfl
  | filterExpiry n =>
    obtain rfl := Host.Outcome.next.inj hexec
    exact h.expireFilter n
  | settlingExpiry n =>
    obtain rfl := Host.Outcome.next.inj hexec
    exact h.expireSettling n
  | ackAlert contact =>
    obtain rfl := Host.Outcome.next.inj hexec
    exact h.takeAckAlert contact
  | setDepartureHold v | setCancelHold v | setLanguageDwell v | setSilenceLimit v | setRefreshCycle v | setBusRate b v
  | setHoldLimit v =>
    obtain rfl := Host.Outcome.next.inj hexec
    exact h.setting (fun _ => rfl) v _
  | setStalePeriod v | setCountdownLimit v | setDelayThreshold v =>
    obtain rfl := Host.Outcome.next.inj hexec
    exact rederived (h.setting (fun _ => rfl) v _)
  | setBusEnable b v =>
    obtain rfl := Host.Outcome.next.inj hexec
    refine alertsOk_dependsOn.kept (switchBus_changes b _ _ _) (by simp) (h.setting ?_ v _)
    exact fun _ => rfl
  | setSensorFallbackLevel v =>
    obtain rfl := Host.Outcome.next.inj hexec
    exact h.setFallback v
  | setContactEnable n v =>
    obtain rfl := Host.Outcome.next.inj hexec
    exact h.setContactEnable n v
  | setContactMode n v | setContactPolarity n v =>
    obtain rfl := Host.Outcome.next.inj hexec
    refine AlertsOk.judgeLevel (h.contactSetting n ?_ v _) n
    exact fun _ => rfl
  | setContactFilter n v | setContactAlertString n v =>
    obtain rfl := Host.Outcome.next.inj hexec
    refine h.contactSetting n ?_ v _
    exact fun _ => rfl
  | setContactPanelMask n v =>
    obtain rfl := Host.Outcome.next.inj hexec
    have := h.contactSetting n (f := fun c => { c with mask := maskOf v }) (fun _ => rfl) 0 0
    rwa [State.noteClamp, if_pos rfl] at this
  | restart broadcast =>
    obtain rfl := Host.Outcome.next.inj hexec
    exact h.takeRestart broadcast
  | externalReset =>
    obtain rfl := Host.Outcome.next.inj hexec
    exact alertsOk_externalReset s
  | _ => exact nomatch htouch

theorem alertsOk_stepKept : StepKept AlertsOk :=
  alertsOk_dependsOn.stepKept (by decide)
    (fun s => alertsOk_dependsOn.kept (hearGood_changes s) (by decide)) alertsOk_touched

/-- Settles O10: a latch and its slot are set and cleared together, and no other command reaches either. -/
theorem everyStepKeepsSlotsAndContactsTogether : Obligations.EveryStepKeepsSlotsAndContactsTogether :=
  fun _ _ hslots hcontacts hstep => alertsOk_stepKept.step hstep ⟨hslots, hcontacts⟩

end Sys2Proof.Machine

/-! The display side: what a mark adds, what the operations on one zone or one panel leave alone, and the views chosen
again, panel by panel. -/

namespace Sys2Proof.Machine

open Claims

/-! ### What a display's frame leaves alone -/

section
variable {ps : List Part} {d e : Display} (h : DispChanges ps d e)
include h

theorem DispChanges.views_eq (hp : .views ∉ ps) : e.seq.views = d.seq.views := h State.reset .views hp
theorem DispChanges.phase_eq (hp : .phase ∉ ps) : e.seq.phase = d.seq.phase := (h State.reset .phase hp).1
theorem DispChanges.langCount_eq (hp : .phase ∉ ps) : e.seq.langCount = d.seq.langCount := (h State.reset .phase hp).2
theorem DispChanges.runtimes_eq (hp : .runtimes ∉ ps) : e.seq.runtimes = d.seq.runtimes := h State.reset .runtimes hp
theorem DispChanges.synthetic_eq (hp : .synthetic ∉ ps) : e.seq.synthetic = d.seq.synthetic :=
  h State.reset .synthetic hp
theorem DispChanges.dirty_eq (hp : .dirty ∉ ps) : e.lines.dirty = d.lines.dirty := h State.reset .dirty hp
theorem DispChanges.cursor_eq (hp : .cursors ∉ ps) : e.lines.cursor = d.lines.cursor := h State.reset .cursors hp
theorem DispChanges.panels_eq (hp : .panels ∉ ps) : e.panels = d.panels := h State.reset .panels hp

end

/-! ### Marks (R85, R124) -/

theorem mem_mark {d : Display} {p q : Fin 16} {row : PanelRow} {ys : List Nat} {y : Nat} :
    y ∈ (d.mark p row ys).lines.dirty.get q ↔ y ∈ d.lines.dirty.get q ∨ (q = p ∧ y ∈ ys ∧ y < row.height) := by
  unfold Display.mark
  dsimp only
  rw [Vec.get_update]
  split
  next heq => simp [mem_addLines, heq, or_comm]
  next hne => simp [Ne.symm hne]

theorem mem_markPanel {d : Display} {p q : Fin 16} {row : PanelRow} {y : Nat} :
    y ∈ (d.markPanel p row).lines.dirty.get q ↔ y ∈ d.lines.dirty.get q ∨ (q = p ∧ y < row.height) := by
  simp [Display.markPanel, mem_mark]

theorem mem_markContent {d : Display} {p q : Fin 16} {row : PanelRow} {ys : List Nat} {y : Nat} :
    y ∈ (d.markContent p row ys).lines.dirty.get q ↔
      y ∈ d.lines.dirty.get q ∨ (d.seq.views.get p = some .normal ∧ q = p ∧ y ∈ ys ∧ y < row.height) := by
  unfold Display.markContent
  split
  next hview => simp [mem_mark, hview]
  next hview => simp [hview]

@[simp] theorem markContent_seq (d : Display) (p : Fin 16) (row : PanelRow) (ys : List Nat) :
    (d.markContent p row ys).seq = d.seq := by
  unfold Display.markContent
  split <;> rfl

@[simp] theorem markContent_panels (d : Display) (p : Fin 16) (row : PanelRow) (ys : List Nat) :
    (d.markContent p row ys).panels = d.panels := by
  unfold Display.markContent
  split <;> rfl

@[simp] theorem markContent_cursor (d : Display) (p : Fin 16) (row : PanelRow) (ys : List Nat) :
    (d.markContent p row ys).lines.cursor = d.lines.cursor := by
  unfold Display.markContent
  split <;> rfl

@[simp] theorem setRuntime_find (d : Display) (z w : Nat) (rt : Option ZoneRuntime) :
    (d.setRuntime z rt).seq.runtimes.find w = if z = w then rt else d.seq.runtimes.find w :=
  Table.find_write d.seq.runtimes z w rt

theorem mem_clippedLines {z : Zone} {row : PanelRow} {from_ count y : Nat} :
    y ∈ z.clippedLines row from_ count ↔
      z.x < row.width ∧ y < row.height ∧ z.y ≤ y ∧ y < z.y + z.h ∧ from_ ≤ y ∧ y < from_ + count := by
  unfold Zone.clippedLines
  split
  next hout => simp [Nat.not_lt_of_le hout]
  next hin => simp [Nat.lt_of_not_le hin]

theorem lt_height_of_mem_clippedLines {z : Zone} {row : PanelRow} {from_ count y : Nat}
    (h : y ∈ z.clippedLines row from_ count) : y < row.height := (mem_clippedLines.mp h).2.1

theorem lt_height_of_mem_syntheticTextLines {row : PanelRow} {fontHeight y : Nat}
    (h : y ∈ syntheticTextLines row fontHeight) : y < row.height :=
  List.mem_range.mp (List.mem_of_mem_filter h)

/-! ### Zones of a scene (R59, R75) -/

theorem mem_zones {sc : Scene} {z : Nat} {p : Fin 16} {row : PanelRow} {zone : Zone} :
    (z, p, row, zone) ∈ sc.zones ↔ (z, zone) ∈ sc.bank.zones ∧ p = panelOfZone z ∧ sc.panel p = some row := by
  unfold Scene.zones
  rw [List.mem_filterMap]
  constructor
  · rintro ⟨⟨w, zone'⟩, hmem, heq⟩
    dsimp only at heq
    split at heq
    next row' hrow =>
      simp only [Option.some.injEq, Prod.mk.injEq] at heq
      obtain ⟨rfl, rfl, rfl, rfl⟩ := heq
      exact ⟨hmem, rfl, hrow⟩
    · cases heq
  · rintro ⟨hmem, rfl, hrow⟩
    exact ⟨(z, zone), hmem, by simp [hrow]⟩

/-- The zones of a scene have different numbers where the zone table is in canonical form. -/
theorem zones_nodup {sc : Scene} (h : sc.bank.zones.wf) : (sc.zones.map Prod.fst).Nodup := by
  unfold Scene.zones
  refine List.pairwise_map.mpr (List.pairwise_filterMap.mpr (List.Pairwise.imp (fun {a b} hlt x hx y hy => ?_) h))
  have first {e : Nat × Zone} {x : Nat × Fin 16 × PanelRow × Zone}
      (hx : (match sc.panel (panelOfZone e.1) with
        | some row => some (e.1, panelOfZone e.1, row, e.2)
        | none => none) = some x) : x.1 = e.1 := by
    split at hx
    · rw [← Option.some.inj hx]
    · cases hx
  rw [first hx, first hy]
  exact Nat.ne_of_lt hlt

theorem zone_eq_some_iff {sc : Scene} {z : Nat} {p : Fin 16} {row : PanelRow} {zone : Zone} :
    sc.zone z = some (p, row, zone) ↔ sc.bank.zones.find z = some zone ∧ p = panelOfZone z ∧ sc.panel p = some row := by
  unfold Scene.zone
  constructor
  · intro h
    split at h
    next zone' row' hzone hrow =>
      simp only [Option.some.injEq, Prod.mk.injEq] at h
      obtain ⟨rfl, rfl, rfl⟩ := h
      exact ⟨hzone, rfl, hrow⟩
    · cases h
  · rintro ⟨hzone, rfl, hrow⟩
    simp [hzone, hrow]

theorem mem_zones_of_zone {sc : Scene} {z : Nat} {e : Fin 16 × PanelRow × Zone} (h : sc.zone z = some e) :
    (z, e) ∈ sc.zones := by
  obtain ⟨p, row, zone⟩ := e
  obtain ⟨hzone, hp, hrow⟩ := zone_eq_some_iff.mp h
  exact mem_zones.mpr ⟨Table.mem_of_find hzone, hp, hrow⟩

theorem zone_of_mem_zones {sc : Scene} (hwf : sc.bank.zones.wf) {z : Nat} {e : Fin 16 × PanelRow × Zone}
    (h : (z, e) ∈ sc.zones) : sc.zone z = some e := by
  obtain ⟨p, row, zone⟩ := e
  obtain ⟨hmem, hp, hrow⟩ := mem_zones.mp h
  exact zone_eq_some_iff.mpr ⟨Table.find_eq_some_of_mem hwf hmem, hp, hrow⟩

/-! ### One panel's part of the display -/

/-- Two displays agree in what belongs to a panel: its view, synthetic zone, lines, cursor and bus record, and the
runtimes of its zones. -/
structure SamePanel (p : Fin 16) (d e : Display) : Prop where
  view : e.seq.views.get p = d.seq.views.get p
  synthetic : e.seq.synthetic.get p = d.seq.synthetic.get p
  dirty : e.lines.dirty.get p = d.lines.dirty.get p
  cursor : e.lines.cursor.get p = d.lines.cursor.get p
  record : e.panels.get p = d.panels.get p
  runtime : ∀ z, panelOfZone z = p → e.seq.runtimes.find z = d.seq.runtimes.find z

theorem SamePanel.refl (p : Fin 16) (d : Display) : SamePanel p d d := ⟨rfl, rfl, rfl, rfl, rfl, fun _ _ => rfl⟩

theorem SamePanel.trans {p : Fin 16} {d e f : Display} (h : SamePanel p d e) (k : SamePanel p e f) : SamePanel p d f :=
  ⟨k.view.trans h.view, k.synthetic.trans h.synthetic, k.dirty.trans h.dirty, k.cursor.trans h.cursor,
    k.record.trans h.record, fun z hz => (k.runtime z hz).trans (h.runtime z hz)⟩

/-- What an operation taken panel by panel does at a panel is what it does there alone. -/
theorem samePanel_foldl {f : Display → Fin 16 → Display} (hphase : ∀ d p, (f d p).seq.phase = d.seq.phase)
    (hother : ∀ d p q, q ≠ p → SamePanel q d (f d p))
    (hcongr : ∀ d e p, e.seq.phase = d.seq.phase → SamePanel p d e → SamePanel p (f d p) (f e p)) (d : Display)
    (p : Fin 16) : SamePanel p (f d p) ((List.finRange 16).foldl f d) := by
  suffices h : ∀ (l : List (Fin 16)) (d : Display), l.Nodup →
      (p ∈ l → SamePanel p (f d p) (l.foldl f d)) ∧ (p ∉ l → SamePanel p d (l.foldl f d)) from
    (h _ d (List.nodup_finRange 16)).1 (List.mem_finRange p)
  intro l
  induction l with
  | nil => exact fun d _ => ⟨nofun, fun _ => SamePanel.refl p d⟩
  | cons q rest ih =>
    intro d hnodup
    obtain ⟨hq, hrest⟩ := List.nodup_cons.mp hnodup
    refine ⟨fun hp => ?_, fun hp => ?_⟩
    · rcases List.mem_cons.mp hp with rfl | hp
      · exact (ih _ hrest).2 hq
      · have hne : p ≠ q := fun heq => hq (heq ▸ hp)
        exact (hcongr d _ p (hphase d q) (hother d q p hne)).trans ((ih _ hrest).1 hp)
    · obtain ⟨hne, hp⟩ := List.ne_and_not_mem_of_not_mem_cons hp
      exact (hother d q p hne).trans ((ih _ hrest).2 hp)

/-! ### Views chosen again (R94, R101, R120, R121) -/

section
variable (sc : Scene)

theorem commandChange_seq (d : Display) (p : Fin 16) (view : PanelView) : (d.commandChange p view).seq = d.seq := by
  unfold Display.commandChange
  split
  · rfl
  · split <;> rfl

theorem commandChange_lines (d : Display) (p : Fin 16) (view : PanelView) :
    (d.commandChange p view).lines = d.lines := by
  unfold Display.commandChange
  split
  · rfl
  · split <;> rfl

/-- The view command that a panel has pending once its view has changed (R121). -/
def commandAfter (old : Option PanelView) (view : PanelView) (pending : Option ViewCommand) : Option ViewCommand :=
  if view = .blank then some .blank else if old = some .blank then some .unblank else pending

theorem commandChange_panels (d : Display) (p q : Fin 16) (view : PanelView) :
    (d.commandChange p view).panels.get q =
      if p = q then
        { d.panels.get q with
          viewCommand := commandAfter (d.seq.views.get p) view (d.panels.get q).viewCommand }
      else d.panels.get q := by
  unfold Display.commandChange commandAfter Display.setViewCommand Display.onPanel
  split
  · exact Vec.get_update _ _ _ _
  · split
    · exact Vec.get_update _ _ _ _
    · split <;> rfl

theorem restartPaging_seq (p : Fin 16) (d : Display) :
    (restartPaging p sc d).seq.views = d.seq.views ∧ (restartPaging p sc d).seq.synthetic = d.seq.synthetic ∧
      (restartPaging p sc d).seq.phase = d.seq.phase := by
  have h := restartPaging_changes p sc d
  exact ⟨h.views_eq (by decide), h.synthetic_eq (by decide), h.phase_eq (by decide)⟩

theorem restartPaging_lines (p : Fin 16) (d : Display) :
    (restartPaging p sc d).lines.dirty = d.lines.dirty ∧ (restartPaging p sc d).lines.cursor = d.lines.cursor ∧
      (restartPaging p sc d).panels = d.panels := by
  have h := restartPaging_changes p sc d
  exact ⟨h.dirty_eq (by decide), h.cursor_eq (by decide), h.panels_eq (by decide)⟩

/-- One zone's part in the restart of a panel's paged zones (R94). -/
def restartZone (p : Fin 16) (d : Display) (e : Nat × Fin 16 × PanelRow × Zone) : Display :=
  match e.2.2.2.kind with
  | .rows _ _ _ _ _ pages _ =>
    if e.2.1 = p ∧ pages ≠ 1 then d.setRuntime e.1 (startRuntime sc d.seq.phase e.2.1 e.2.2.1 e.2.2.2) else d
  | _ => d

theorem restartPaging_eq (p : Fin 16) (d : Display) : restartPaging p sc d = sc.zones.foldl (restartZone sc p) d := rfl

/-- A ROWS zone of more than one page, decided (R92). -/
def pagedZone (zone : Zone) : Bool :=
  match zone.kind with
  | .rows _ _ _ _ _ pages _ => decide (pages ≠ 1)
  | _ => false

theorem pagedZone_iff (zone : Zone) : pagedZone zone = true ↔ Paged zone := by
  unfold pagedZone Paged
  constructor
  · intro h
    split at h
    next hkind => exact ⟨_, _, _, _, _, _, _, hkind, of_decide_eq_true h⟩
    · cases h
  · rintro ⟨_, _, _, _, _, _, _, hkind, hpages⟩
    simp [hkind, hpages]

theorem restartZone_eq (p : Fin 16) (d : Display) (e : Nat × Fin 16 × PanelRow × Zone) :
    restartZone sc p d e =
      if e.2.1 = p ∧ pagedZone e.2.2.2 = true then
        d.setRuntime e.1 (startRuntime sc d.seq.phase e.2.1 e.2.2.1 e.2.2.2)
      else d := by
  unfold restartZone pagedZone
  cases e.2.2.2.kind <;> simp

/-- The paged zones of a panel restart, and no other zone's runtime moves (R94). -/
theorem restartPaging_other {p : Fin 16} (d : Display) {z : Nat} (hz : panelOfZone z ≠ p) :
    (restartPaging p sc d).seq.runtimes.find z = d.seq.runtimes.find z := by
  rw [restartPaging_eq]
  refine List.foldlRecOn sc.zones (restartZone sc p) (motive := fun e => e.seq.runtimes.find z = d.seq.runtimes.find z)
    rfl fun e he x hx => ?_
  obtain ⟨w, q, row, zone⟩ := x
  obtain ⟨-, hq, -⟩ := mem_zones.mp hx
  rw [restartZone_eq]
  split
  next hown =>
    have hne : w ≠ z := fun hw => hz (by rw [← hw, ← hq]; exact hown.1)
    rw [setRuntime_find, if_neg hne]
    exact he
  · exact he

theorem restartPaging_congr {p : Fin 16} {d e : Display} (hphase : e.seq.phase = d.seq.phase) (h : SamePanel p d e) :
    SamePanel p (restartPaging p sc d) (restartPaging p sc e) := by
  rw [restartPaging_eq, restartPaging_eq]
  refine (List.foldl_rel (r := fun d e => SamePanel p d e ∧ e.seq.phase = d.seq.phase) ⟨h, hphase⟩
    fun x _ d e hde => ?_).1
  obtain ⟨hsame, hphase⟩ := hde
  rw [restartZone_eq, restartZone_eq, hphase]
  split
  · refine ⟨⟨hsame.view, hsame.synthetic, hsame.dirty, hsame.cursor, hsame.record, fun z hz => ?_⟩, hphase⟩
    rw [setRuntime_find, setRuntime_find, hsame.runtime z hz]
  · exact ⟨hsame, hphase⟩

theorem enterView_samePanel {p q : Fin 16} (row : PanelRow) (view : PanelView) (d : Display) (hq : q ≠ p) :
    SamePanel q d (enterView sc p row view d) :=
  ⟨Vec.get_set_of_ne _ (Ne.symm hq) _, Vec.get_set_of_ne _ (Ne.symm hq) _, rfl, rfl, rfl, fun _ _ => rfl⟩

theorem commandView_samePanel {p q : Fin 16} (row : PanelRow) (view : PanelView) (d : Display) (hq : q ≠ p) :
    SamePanel q d (commandView p row view d) := by
  refine ⟨?_, ?_, ?_, ?_, ?_, fun z _ => ?_⟩
  · exact congrArg (fun seq => seq.views.get q) (commandChange_seq d p view)
  · exact congrArg (fun seq => seq.synthetic.get q) (commandChange_seq d p view)
  · exact (Vec.get_update _ _ _ _).trans
      ((if_neg (Ne.symm hq)).trans (congrArg (fun lines => lines.dirty.get q) (commandChange_lines d p view)))
  · exact congrArg (fun lines => lines.cursor.get q) (commandChange_lines d p view)
  · exact (commandChange_panels d p q view).trans (if_neg (Ne.symm hq))
  · exact congrArg (fun seq => seq.runtimes.find z) (commandChange_seq d p view)

/-- A panel's part of the display once its view has changed, but for its paged zones (R101, R121). -/
structure Entered (p : Fin 16) (row : PanelRow) (view : PanelView) (d e : Display) : Prop where
  shown : e.seq.views.get p = some view
  synthetic : e.seq.synthetic.get p =
    if view = .emergency then some ((syntheticPlace d.seq.phase p row).start sc) else none
  dirty : e.lines.dirty.get p = addLines ((List.range row.height).filter fun y => decide (y < row.height))
    (d.lines.dirty.get p)
  cursor : e.lines.cursor.get p = d.lines.cursor.get p
  record : e.panels.get p = { d.panels.get p with
    viewCommand := commandAfter (d.seq.views.get p) view (d.panels.get p).viewCommand }

theorem enterView_entered (p : Fin 16) (row : PanelRow) (view : PanelView) (d : Display) :
    Entered sc p row view d (enterView sc p row view (commandView p row view d)) := by
  refine ⟨Vec.get_set_self _ _ _, ?_, ?_, ?_, ?_⟩
  · refine (Vec.get_set_self _ _ _).trans ?_
    rw [show (commandView p row view d).seq = d.seq from commandChange_seq d p view]
  · exact (Vec.get_update_self _ _ _).trans
      (congrArg (fun lines => addLines _ (lines.dirty.get p)) (commandChange_lines d p view))
  · exact congrArg (fun lines => lines.cursor.get p) (commandChange_lines d p view)
  · exact (commandChange_panels d p p view).trans (if_pos rfl)

theorem changeView_entered (p : Fin 16) (row : PanelRow) (view : PanelView) (d : Display) :
    Entered sc p row view d (changeView sc p row view d) := by
  have entered := enterView_entered sc p row view d
  unfold changeView
  split
  · generalize enterView sc p row view (commandView p row view d) = e at entered
    obtain ⟨hviews, hsynthetic, -⟩ := restartPaging_seq sc p e
    obtain ⟨hdirty, hcursor, hpanels⟩ := restartPaging_lines sc p e
    exact ⟨by rw [hviews]; exact entered.shown, by rw [hsynthetic]; exact entered.synthetic,
      by rw [hdirty]; exact entered.dirty, by rw [hcursor]; exact entered.cursor, by rw [hpanels]; exact entered.record⟩
  · exact entered

theorem enterView_runtimes (p : Fin 16) (row : PanelRow) (view : PanelView) (d : Display) :
    (enterView sc p row view (commandView p row view d)).seq.runtimes = d.seq.runtimes := by
  show (d.commandChange p view).seq.runtimes = d.seq.runtimes
  rw [commandChange_seq]

theorem enterView_phase (p : Fin 16) (row : PanelRow) (view : PanelView) (d : Display) :
    (enterView sc p row view (commandView p row view d)).seq.phase = d.seq.phase := by
  show (d.commandChange p view).seq.phase = d.seq.phase
  rw [commandChange_seq]

theorem rechooseView_phase (d : Display) (p : Fin 16) : (rechooseView sc d p).seq.phase = d.seq.phase :=
  (rechooseView_changes sc d p).phase_eq (by decide)

theorem rechooseView_other (d : Display) (p q : Fin 16) (hq : q ≠ p) : SamePanel q d (rechooseView sc d p) := by
  have changed (row : PanelRow) (view : PanelView) : SamePanel q d (changeView sc p row view d) := by
    have entered := (commandView_samePanel row view d hq).trans (enterView_samePanel sc row view _ hq)
    unfold changeView
    split
    · generalize enterView sc p row view (commandView p row view d) = e at entered
      obtain ⟨hviews, hsynthetic, -⟩ := restartPaging_seq sc p e
      obtain ⟨hdirty, hcursor, hpanels⟩ := restartPaging_lines sc p e
      refine entered.trans ⟨by rw [hviews], by rw [hsynthetic], by rw [hdirty], by rw [hcursor], by rw [hpanels],
        fun z hz => restartPaging_other sc e fun h => hq (hz ▸ h)⟩
    · exact entered
  unfold rechooseView
  split
  · exact SamePanel.refl q d
  · split
    · exact SamePanel.refl q d
    · exact changed _ _

theorem Entered.congr {p : Fin 16} {row : PanelRow} {view : PanelView} {d e d' e' : Display}
    (hd : Entered sc p row view d d') (he : Entered sc p row view e e') (hphase : e.seq.phase = d.seq.phase)
    (h : SamePanel p d e) (hruntime : ∀ z, panelOfZone z = p → e'.seq.runtimes.find z = d'.seq.runtimes.find z) :
    SamePanel p d' e' where
  view := he.shown.trans hd.shown.symm
  synthetic := by rw [he.synthetic, hd.synthetic, hphase]
  dirty := by rw [he.dirty, hd.dirty, h.dirty]
  cursor := by rw [he.cursor, hd.cursor, h.cursor]
  record := by rw [he.record, hd.record, h.record, h.view]
  runtime := hruntime

theorem rechooseView_congr (d e : Display) (p : Fin 16) (hphase : e.seq.phase = d.seq.phase) (h : SamePanel p d e) :
    SamePanel p (rechooseView sc d p) (rechooseView sc e p) := by
  unfold rechooseView
  split
  · exact h
  next row _ =>
    rw [h.view]
    split
    · exact h
    · generalize chosenView sc p row = view
      have entered : SamePanel p (enterView sc p row view (commandView p row view d))
          (enterView sc p row view (commandView p row view e)) :=
        (enterView_entered sc p row view d).congr sc (enterView_entered sc p row view e) hphase h fun z hz => by
          rw [enterView_runtimes, enterView_runtimes, h.runtime z hz]
      unfold changeView
      split
      · exact restartPaging_congr sc (by rw [enterView_phase, enterView_phase, hphase]) entered
      · exact entered

/-- Choosing the views again does at each panel what it does there alone (R120, R121). -/
theorem rechooseViews_panel (d : Display) (p : Fin 16) : SamePanel p (rechooseView sc d p) (rechooseViews sc d) :=
  samePanel_foldl (rechooseView_phase sc) (rechooseView_other sc) (rechooseView_congr sc) d p

theorem rechooseViews_phase (d : Display) : (rechooseViews sc d).seq.phase = d.seq.phase :=
  (rechooseViews_changes sc d).phase_eq (by decide)

theorem rechooseView_absent {d : Display} {p : Fin 16} (h : sc.panel p = none) : rechooseView sc d p = d := by
  simp only [rechooseView, h]

theorem rechooseView_stays {d : Display} {p : Fin 16} {row : PanelRow} (h : sc.panel p = some row)
    (hview : d.seq.views.get p = some (chosenView sc p row)) : rechooseView sc d p = d := by
  simp only [rechooseView, h, if_pos hview]

theorem rechooseView_changes_view {d : Display} {p : Fin 16} {row : PanelRow} (h : sc.panel p = some row)
    (hview : d.seq.views.get p ≠ some (chosenView sc p row)) :
    rechooseView sc d p = changeView sc p row (chosenView sc p row) d := by
  simp only [rechooseView, h, if_neg hview]

/-- A panel holds the view that is chosen for it once the views have been chosen again. -/
theorem rechooseViews_view {d : Display} {p : Fin 16} {row : PanelRow} (h : sc.panel p = some row) :
    (rechooseViews sc d).seq.views.get p = some (chosenView sc p row) := by
  rw [(rechooseViews_panel sc d p).view]
  by_cases hview : d.seq.views.get p = some (chosenView sc p row)
  · rw [rechooseView_stays sc h hview, hview]
  · rw [rechooseView_changes_view sc h hview]
    exact (changeView_entered sc p row _ d).shown

theorem rechooseViews_absent {d : Display} {p : Fin 16} (h : sc.panel p = none) : SamePanel p d (rechooseViews sc d) := by
  have := rechooseViews_panel sc d p
  rwa [rechooseView_absent sc h] at this

theorem rechooseViews_stays {d : Display} {p : Fin 16} {row : PanelRow} (h : sc.panel p = some row)
    (hview : d.seq.views.get p = some (chosenView sc p row)) : SamePanel p d (rechooseViews sc d) := by
  have := rechooseViews_panel sc d p
  rwa [rechooseView_stays sc h hview] at this

theorem rechooseViews_changed {d : Display} {p : Fin 16} {row : PanelRow} (h : sc.panel p = some row)
    (hview : d.seq.views.get p ≠ some (chosenView sc p row)) :
    Entered sc p row (chosenView sc p row) d (rechooseViews sc d) := by
  have same := rechooseViews_panel sc d p
  rw [rechooseView_changes_view sc h hview] at same
  have entered := changeView_entered sc p row (chosenView sc p row) d
  exact ⟨same.view.trans entered.shown, same.synthetic.trans entered.synthetic, same.dirty.trans entered.dirty,
    same.cursor.trans entered.cursor, same.record.trans entered.record⟩

end

end Sys2Proof.Machine

/-! Message rotation (R97), what a message place starts with, and the views chosen again (R120, R121). -/

namespace Sys2Proof.Machine

open Claims

/-! ### The top group and its successor (R97) -/

theorem acc_le_foldl_max (l : List Nat) (a : Nat) : a ≤ l.foldl max a := by
  induction l generalizing a with
  | nil => exact le_refl a
  | cons b rest ih => exact (Nat.le_max_left a b).trans (ih _)

theorem le_foldl_max {l : List Nat} {x : Nat} (h : x ∈ l) (a : Nat) : x ≤ l.foldl max a := by
  induction l generalizing a with
  | nil => cases h
  | cons b rest ih =>
    rcases List.mem_cons.mp h with rfl | h
    · exact (Nat.le_max_right a x).trans (acc_le_foldl_max rest _)
    · exact ih h _

theorem foldl_max_mem (l : List Nat) (a : Nat) : l.foldl max a ∈ a :: l := by
  induction l generalizing a with
  | nil => simp
  | cons b rest ih =>
    rw [List.foldl_cons]
    rcases List.mem_cons.mp (ih (max a b)) with h | h
    · rw [h]
      rcases max_choice a b with h | h <;> simp [h]
    · simp [h]

/-- A slot eligible for a panel: its record's mask holds the panel, and its priority is at least the least (R97). -/
theorem mem_eligibleSlots {slots : Vec Slot 8} {p : Fin 16} {floor : Priority} {i : Fin 8} {rank : Nat} :
    (i, rank) ∈ eligibleSlots slots p floor ↔
      ∃ r, (slots.get i).record? = some r ∧ r.mask.getLsbD p.val = true ∧ floor.rank ≤ r.priority.rank ∧
        r.priority.rank = rank := by
  unfold eligibleSlots
  rw [List.mem_filterMap]
  constructor
  · rintro ⟨j, -, hj⟩
    split at hj
    next r hr =>
      split at hj
      next hmask =>
        simp only [Option.some.injEq, Prod.mk.injEq] at hj
        obtain ⟨rfl, rfl⟩ := hj
        simp only [Bool.and_eq_true, decide_eq_true_eq] at hmask
        exact ⟨r, hr, hmask.1, hmask.2, rfl⟩
      · cases hj
    · cases hj
  · rintro ⟨r, hr, hmask, hfloor, rfl⟩
    exact ⟨i, List.mem_finRange i, by simp [hr, hmask, hfloor]⟩

theorem mem_topGroup {slots : Vec Slot 8} {p : Fin 16} {floor : Priority} {i : Fin 8} :
    i ∈ topGroup slots p floor ↔
      ∃ r, (slots.get i).record? = some r ∧ r.mask.getLsbD p.val = true ∧ floor.rank ≤ r.priority.rank ∧
        ∀ j r', (slots.get j).record? = some r' → r'.mask.getLsbD p.val = true → r'.priority.rank ≤ r.priority.rank := by
  unfold topGroup
  dsimp only
  generalize htop : ((eligibleSlots slots p floor).map Prod.snd).foldl max 0 = top
  have hle {j : Fin 8} {rank : Nat} (h : (j, rank) ∈ eligibleSlots slots p floor) : rank ≤ top :=
    htop ▸ le_foldl_max (List.mem_map_of_mem (f := Prod.snd) h) 0
  have hmem : top = 0 ∨ ∃ j, (j, top) ∈ eligibleSlots slots p floor := by
    rcases List.mem_cons.mp (htop ▸ foldl_max_mem _ _) with h | h
    · exact .inl h
    · obtain ⟨⟨j, rank⟩, hj, rfl⟩ := List.mem_map.mp h
      exact .inr ⟨j, hj⟩
  simp only [List.mem_map, List.mem_filter, decide_eq_true_eq, Prod.exists, exists_and_right, exists_eq_right]
  rw [mem_eligibleSlots]
  refine exists_congr fun r => and_congr_right fun hr => and_congr_right fun hmask => and_congr_right fun hfloor =>
    ⟨fun heq j r' hr' hmask' => ?_, fun hbest => ?_⟩
  · by_cases hfloor' : floor.rank ≤ r'.priority.rank
    · rw [heq]
      exact hle (mem_eligibleSlots.mpr ⟨r', hr', hmask', hfloor', rfl⟩)
    · omega
  · have hr : r.priority.rank ≤ top := hle (mem_eligibleSlots.mpr ⟨r, hr, hmask, hfloor, rfl⟩)
    rcases hmem with h0 | ⟨j, hj⟩
    · omega
    · obtain ⟨r', hr', hmask', -, heq⟩ := mem_eligibleSlots.mp hj
      have := hbest j r' hr' hmask'
      omega

theorem topGroup_rising (slots : Vec Slot 8) (p : Fin 16) (floor : Priority) :
    (topGroup slots p floor).Pairwise (· < ·) := by
  have heligible : (eligibleSlots slots p floor).Pairwise fun a b => a.1 < b.1 := by
    refine List.pairwise_filterMap.mpr (List.Pairwise.imp (fun {a b} hlt x hx y hy => ?_) (List.pairwise_lt_finRange 8))
    have first {i : Fin 8} {x : Fin 8 × Nat} (hx : (match (slots.get i).record? with
        | some r =>
          if (r.mask.getLsbD p.val && decide (floor.rank ≤ r.priority.rank)) = true then some (i, r.priority.rank) else none
        | none => none) = some x) : x.1 = i := by
      split at hx
      · split at hx
        · rw [← Option.some.inj hx]
        · cases hx
      · cases hx
    rw [first hx, first hy]
    exact hlt
  exact List.pairwise_map.mpr (List.Pairwise.filter _ heligible)

theorem successor_eq_none_iff {cursor : Fin 8} {group : List (Fin 8)} : successor cursor group = none ↔ group = [] := by
  unfold successor
  split
  next s hs =>
    have := List.mem_of_find?_eq_some hs
    constructor
    · nofun
    · rintro rfl
      cases this
  · exact List.head?_eq_none_iff

/-- The successor of a cursor in a rising group (R97). -/
theorem successor_lowest {cursor s : Fin 8} {group : List (Fin 8)} (hrising : group.Pairwise (· < ·))
    (h : successor cursor group = some s) :
    s ∈ group ∧ ((cursor < s ∧ ∀ i ∈ group, cursor < i → s ≤ i) ∨ ∀ i ∈ group, i ≤ cursor ∧ s ≤ i) := by
  unfold successor at h
  split at h
  next t ht =>
    obtain rfl := Option.some.inj h
    obtain ⟨habove, as, bs, rfl, has⟩ := List.find?_eq_some_iff_append.mp ht
    refine ⟨by simp, .inl ⟨of_decide_eq_true habove, fun i hi hlt => ?_⟩⟩
    rcases List.mem_append.mp hi with hi | hi
    · simpa [hlt] using has i hi
    · rcases List.mem_cons.mp hi with rfl | hi
      · exact le_refl _
      · exact le_of_lt ((List.pairwise_cons.mp (List.pairwise_append.mp hrising).2.1).1 i hi)
  next hnone =>
    have hbelow : ∀ i ∈ group, i ≤ cursor := fun i hi => by simpa using List.find?_eq_none.mp hnone i hi
    obtain ⟨rest, rfl⟩ := List.head?_eq_some_iff.mp h
    refine ⟨List.mem_cons_self, .inr fun i hi => ⟨hbelow i hi, ?_⟩⟩
    rcases List.mem_cons.mp hi with rfl | hi
    · exact le_refl _
    · exact le_of_lt ((List.pairwise_cons.mp hrising).1 i hi)

/-- Settles O26. -/
theorem rotationServesTheTopGroupInTurn : Obligations.RotationServesTheTopGroupInTurn := fun slots p floor _ =>
  ⟨fun _ => mem_topGroup, successor_eq_none_iff, fun _ => successor_lowest (topGroup_rising slots p floor)⟩

/-! ### What a message place starts with (R90, R95 to R98) -/

theorem begin_showing (pl : MessagePlace) (sc : Scene) (rt : MessageRuntime) : (pl.begin sc rt).showing = rt.showing := by
  unfold MessagePlace.begin
  split
  · rfl
  · split <;> rfl
  · split <;> rfl

theorem begin_cursor (pl : MessagePlace) (sc : Scene) (rt : MessageRuntime) : (pl.begin sc rt).cursor = rt.cursor := by
  unfold MessagePlace.begin
  split
  · rfl
  · split <;> rfl
  · split <;> rfl

/-- A text that begins is afresh (R95, R96, R98). -/
theorem begin_afresh (pl : MessagePlace) (sc : Scene) (rt : MessageRuntime) : Afresh pl sc (pl.begin sc rt) := by
  unfold Afresh
  rw [begin_showing]
  unfold MessagePlace.begin
  cases hshowing : rt.showing with
  | empty => exact ⟨rfl, rfl, rfl⟩
  | slot n =>
    dsimp only
    split <;> simp
  | idle =>
    dsimp only
    split <;> simp

theorem unshown_showsNoSlot (pl : MessagePlace) (rt : MessageRuntime) (h : rt.showing = pl.unshown) :
    ShowsNoSlot pl rt := by
  rw [ShowsNoSlot, h, MessagePlace.unshown]
  cases pl.idle <;> simp

theorem start_starts (pl : MessagePlace) (sc : Scene) : MessageStarts pl sc (pl.start sc) := by
  unfold MessageStarts MessagePlace.start MessagePlace.group
  dsimp only
  cases successor 7 (topGroup sc.slots pl.panel pl.floor) with
  | some n => exact ⟨begin_afresh _ _ _, begin_showing _ _ _, begin_cursor _ _ _⟩
  | none =>
    exact ⟨begin_afresh _ _ _, unshown_showsNoSlot pl _ (begin_showing _ _ _), begin_cursor _ _ _⟩

theorem clockText_eq (clock : StationClock) (seconds : Bool) : clockText clock seconds = clockTextOf clock seconds := by
  have hour : clock.value / 3600 % 24 / 10 % 10 = clock.value / 3600 % 24 / 10 := by omega
  have minute : clock.value % 3600 / 60 / 10 % 10 = clock.value % 3600 / 60 / 10 := by omega
  have second : clock.value % 60 / 10 % 10 = clock.value % 60 / 10 := by omega
  unfold clockText clockTextOf hourDigits minuteDigits twoDigits
  cases clock.state <;> simp [hour, minute, second]

/-- The runtime that a zone starts with (R90). -/
theorem startRuntime_starts (sc : Scene) (phase : Phase) (p : Fin 16) (row : PanelRow) (zone : Zone) :
    Starts sc phase p row zone (startRuntime sc phase p row zone) := by
  unfold Starts startRuntime
  cases hkind : zone.kind with
  | rows board format first rows gap pages dwell => simp [pageSnapshot]
  | message floor interval dwell idle =>
    simp only [zonePlace?, hkind, Option.map_some]
    exact ⟨_, rfl, start_starts _ sc⟩
  | clock seconds align => simp [clockText_eq]
  | tile first last dwell => simp
  | text string align role => rfl

/-! ### The view chosen for a panel (R120) -/

theorem emergencyFor_iff {sc : Scene} {p : Fin 16} : emergencyFor sc p = true ↔ Emergency sc p := by
  unfold emergencyFor Emergency
  rw [Bool.not_eq_true', List.isEmpty_eq_false_iff_exists_mem]
  simp only [mem_topGroup]
  constructor
  · rintro ⟨i, r, hr, hmask, hfloor, -⟩
    refine ⟨i, r, hr, ?_, hmask⟩
    cases hpriority : r.priority <;> simp_all [Priority.rank]
  · rintro ⟨i, r, hr, hpriority, hmask⟩
    refine ⟨i, r, hr, hmask, by rw [hpriority], fun j r' _ _ => ?_⟩
    rw [hpriority]
    cases r'.priority <;> decide

theorem chosenView_is (sc : Scene) (p : Fin 16) (row : PanelRow) : ViewIs sc p row (chosenView sc p row) := by
  unfold ViewIs chosenView
  rw [← emergencyFor_iff]
  by_cases hfirst : emergencyFor sc p = true ∧ row.policy = .full
  · exact .inl ⟨hfirst.1, hfirst.2, by rw [if_pos hfirst]⟩
  · refine .inr ⟨hfirst, ?_⟩
    rw [if_neg hfirst]
    cases hmode : sc.mode with
    | night => exact .inl ⟨rfl, rfl⟩
    | test => exact .inr (.inl ⟨rfl, rfl⟩)
    | run =>
      by_cases hsilent : sc.silent = true ∧ row.fallback ≠ none
      · exact .inr (.inr (.inl ⟨rfl, hsilent.1, hsilent.2, by simp [hsilent, Option.isSome_iff_ne_none]⟩))
      · exact .inr (.inr (.inr ⟨rfl, hsilent, by simpa [Option.isSome_iff_ne_none] using hsilent⟩))

/-! ### Operations that treat each of their items alone -/

/-- An operation on the display whose part at an item reads and writes what one key reads, and marks lines: what it does
to the reading at the item's key, and the lines that it marks. -/
structure ActsLocally {E K V : Type} [DecidableEq K] (key : E → K) (read : Display → K → V)
    (f : Display → E → Display) (written : Phase → E → V → V)
    (marked : Vec (Option PanelView) 16 → Phase → E → V → Fin 16 → Nat → Prop) (items : E → Prop) : Prop where
  views : ∀ d e, (f d e).seq.views = d.seq.views
  phase : ∀ d e, (f d e).seq.phase = d.seq.phase
  reads : ∀ d e k, items e → read (f d e) k = if key e = k then written d.seq.phase e (read d k) else read d k
  marks : ∀ d e q y, items e → (y ∈ (f d e).lines.dirty.get q ↔
    y ∈ d.lines.dirty.get q ∨ marked d.seq.views d.seq.phase e (read d (key e)) q y)

section
variable {E K V : Type} [DecidableEq K] {key : E → K} {read : Display → K → V} {f : Display → E → Display}
  {written : Phase → E → V → V} {marked : Vec (Option PanelView) 16 → Phase → E → V → Fin 16 → Nat → Prop}
  {items : E → Prop} (h : ActsLocally key read f written marked items)
include h

theorem ActsLocally.foldl_views (l : List E) (d : Display) : (l.foldl f d).seq.views = d.seq.views :=
  List.foldlRecOn l f (motive := fun e => e.seq.views = d.seq.views) rfl fun e he x _ => (h.views e x).trans he

theorem ActsLocally.foldl_phase (l : List E) (d : Display) : (l.foldl f d).seq.phase = d.seq.phase :=
  List.foldlRecOn l f (motive := fun e => e.seq.phase = d.seq.phase) rfl fun e he x _ => (h.phase e x).trans he

/-- A reading at the key of no item stays. -/
theorem ActsLocally.foldl_other {l : List E} (hitems : ∀ e ∈ l, items e) {k : K} (hk : ∀ e ∈ l, key e ≠ k) (d : Display) :
    read (l.foldl f d) k = read d k :=
  List.foldlRecOn l f (motive := fun e => read e k = read d k) rfl fun e he x hx => by
    rw [h.reads e x k (hitems x hx), if_neg (hk x hx), he]

/-- The reading at an item's key, where each key is the key of one item. -/
theorem ActsLocally.foldl_reads {l : List E} (hitems : ∀ e ∈ l, items e) (hnodup : (l.map key).Nodup) {e : E}
    (he : e ∈ l) (d : Display) : read (l.foldl f d) (key e) = written d.seq.phase e (read d (key e)) := by
  induction l generalizing d with
  | nil => cases he
  | cons x rest ih =>
    rw [List.map_cons, List.nodup_cons] at hnodup
    obtain ⟨hx, hrest⟩ := hnodup
    have hitems' := fun e he => hitems e (List.mem_cons_of_mem _ he)
    have hother : ∀ y ∈ rest, key y ≠ key x := fun y hy heq => hx (heq ▸ List.mem_map_of_mem hy)
    rw [List.foldl_cons]
    rcases List.mem_cons.mp he with rfl | he
    · rw [h.foldl_other hitems' hother, h.reads d e _ (hitems e List.mem_cons_self), if_pos rfl]
    · rw [ih hitems' hrest he, h.phase, h.reads d x _ (hitems x List.mem_cons_self), if_neg (hother e he).symm]

/-- The lines marked, where each key is the key of one item. -/
theorem ActsLocally.foldl_marks {l : List E} (hitems : ∀ e ∈ l, items e) (hnodup : (l.map key).Nodup) (d : Display)
    (q : Fin 16) (y : Nat) : y ∈ (l.foldl f d).lines.dirty.get q ↔
      y ∈ d.lines.dirty.get q ∨ ∃ e ∈ l, marked d.seq.views d.seq.phase e (read d (key e)) q y := by
  induction l generalizing d with
  | nil => simp
  | cons x rest ih =>
    rw [List.map_cons, List.nodup_cons] at hnodup
    obtain ⟨hx, hrest⟩ := hnodup
    have hother : ∀ e ∈ rest, key x ≠ key e := fun e he heq => hx (heq ▸ List.mem_map_of_mem he)
    rw [List.foldl_cons, ih (fun e he => hitems e (List.mem_cons_of_mem _ he)) hrest,
      h.marks d x q y (hitems x List.mem_cons_self), h.views, h.phase, or_assoc]
    refine or_congr_right ?_
    simp only [List.mem_cons, exists_eq_or_imp]
    refine or_congr_right (exists_congr fun e => and_congr_right fun he => ?_)
    rw [h.reads d x _ (hitems x List.mem_cons_self), if_neg (hother e he)]

end

/-! ### Paged zones restart (R94) -/

theorem restartZone_local (sc : Scene) (p : Fin 16) :
    ActsLocally (Prod.fst) (fun d z => d.seq.runtimes.find z) (restartZone sc p)
      (fun phase e rt => if e.2.1 = p ∧ pagedZone e.2.2.2 = true then startRuntime sc phase e.2.1 e.2.2.1 e.2.2.2 else rt)
      (fun _ _ _ _ _ _ => False) (fun _ => True) where
  views d e := by rw [restartZone_eq]; split <;> rfl
  phase d e := by rw [restartZone_eq]; split <;> rfl
  reads d e z _ := by
    rw [restartZone_eq]
    split
    · rw [setRuntime_find]
    · split <;> rfl
  marks d e q y _ := by
    rw [restartZone_eq, or_false]
    split <;> exact Iff.rfl

/-- The runtime of a zone once the paged zones of a panel have restarted (R94). -/
theorem restartPaging_find {sc : Scene} (hwf : sc.bank.zones.wf) (p : Fin 16) (d : Display) {z : Nat} {q : Fin 16}
    {row : PanelRow} {zone : Zone} (h : (z, q, row, zone) ∈ sc.zones) :
    (restartPaging p sc d).seq.runtimes.find z =
      if q = p ∧ pagedZone zone = true then startRuntime sc d.seq.phase q row zone else d.seq.runtimes.find z := by
  have := (restartZone_local sc p).foldl_reads (fun _ _ => trivial) (zones_nodup hwf) h d
  rw [restartPaging_eq, this]

/-! ### The views chosen again, as R120 and R121 have it -/

/-- Choosing the views again over a scene with the same panels chooses every present panel's view. -/
theorem viewsChosen_of_rechosen {t : State} {d : Display} (h : t.disp = rechooseViews t.scene d) : ViewsChosen t :=
  fun p row hrow => ⟨_, by rw [h]; exact rechooseViews_view t.scene hrow, chosenView_is t.scene p row⟩

theorem Entered.viewChanged {s t : State} {p : Fin 16} {row : PanelRow} {view : PanelView}
    (h : Entered t.scene p row view s.disp t.disp) (hphase : t.disp.seq.phase = s.disp.seq.phase) :
    ViewChanged p row s t := by
  obtain ⟨hshown, hsynthetic, hdirty, -, hrecord⟩ := h
  refine ⟨?_, fun y => ?_, fun hview => ?_, fun hview => ?_⟩
  · rw [hrecord, hshown]
    simp [commandAfter]
  · rw [hdirty, mem_addLines]
    simp
  · rw [hshown, Option.some.injEq] at hview
    refine ⟨_, by rw [hsynthetic, if_pos hview], ?_⟩
    rw [hphase]
    exact start_starts _ _
  · rw [hshown, ne_eq, Option.some.injEq] at hview
    rw [hsynthetic, if_neg hview]

/-- A present panel whose view changes as the views are chosen again. -/
theorem rechooseViews_entered {sc : Scene} {d : Display} {p : Fin 16} {row : PanelRow} (hrow : sc.panel p = some row)
    (hview : (rechooseViews sc d).seq.views.get p ≠ d.seq.views.get p) :
    Entered sc p row (chosenView sc p row) d (rechooseViews sc d) :=
  rechooseViews_changed sc hrow fun hstays => hview (rechooseViews_stays sc hrow hstays).view

/-- A panel whose view stays as the views are chosen again is left alone. -/
theorem rechooseViews_same {sc : Scene} {d : Display} {p : Fin 16}
    (hview : (rechooseViews sc d).seq.views.get p = d.seq.views.get p) : SamePanel p d (rechooseViews sc d) := by
  cases hrow : sc.panel p with
  | none => exact rechooseViews_absent sc hrow
  | some row => exact rechooseViews_stays sc hrow (by rw [← hview]; exact rechooseViews_view sc hrow)

/-- The runtime of a zone as the views are chosen again: a paged zone of a panel that enters NORMAL starts again, and
every other keeps it (R94). -/
theorem rechooseViews_runtime {sc : Scene} (hwf : sc.bank.zones.wf) (d : Display) {z : Nat} {p : Fin 16} {row : PanelRow}
    {zone : Zone} (h : (z, p, row, zone) ∈ sc.zones) :
    (rechooseViews sc d).seq.runtimes.find z =
      if ((rechooseViews sc d).seq.views.get p ≠ d.seq.views.get p ∧
          (rechooseViews sc d).seq.views.get p = some .normal) ∧ pagedZone zone = true then
        startRuntime sc d.seq.phase p row zone
      else d.seq.runtimes.find z := by
  obtain ⟨-, hp, hrow⟩ := mem_zones.mp h
  by_cases hview : (rechooseViews sc d).seq.views.get p = d.seq.views.get p
  · rw [if_neg fun hn => hn.1.1 hview]
    exact (rechooseViews_same hview).runtime z hp.symm
  · have hne : d.seq.views.get p ≠ some (chosenView sc p row) := fun hstays =>
      hview (rechooseViews_stays sc hrow hstays).view
    have hshown := rechooseViews_view sc (d := d) hrow
    rw [(rechooseViews_panel sc d p).runtime z hp.symm, rechooseView_changes_view sc hrow hne, hshown]
    unfold changeView
    split
    next hnormal =>
      rw [restartPaging_find hwf p _ h, enterView_phase, enterView_runtimes]
      have hentered : some PanelView.normal ≠ d.seq.views.get p := hnormal ▸ hne.symm
      simp [hnormal, hentered]
    next hnormal =>
      rw [enterView_runtimes, if_neg fun hn => hnormal (Option.some.inj hn.1.2)]

/-- The views chosen again over a scene with the same panels and zones. -/
theorem viewsRechosen_of_rechosen {s t : State} (h : t.disp = rechooseViews t.scene s.disp)
    (hbank : t.tables.activeBank = s.tables.activeBank) : ViewsRechosen s t := by
  have hphase : t.disp.seq.phase = s.disp.seq.phase := by rw [h, rechooseViews_phase]
  have hscene (p : Fin 16) : t.scene.panel p = s.scene.panel p := by
    show t.tables.activeBank.panels.find p.val = s.tables.activeBank.panels.find p.val
    rw [hbank]
  refine ⟨viewsChosen_of_rechosen h, fun p row hrow hview => ?_, fun p hview => ?_, fun hwf z p row zone hz => ?_⟩
  · rw [← hscene] at hrow
    refine Entered.viewChanged (view := chosenView t.scene p row) ?_ hphase
    rw [h] at hview ⊢
    exact rechooseViews_entered hrow hview
  · have same : SamePanel p s.disp t.disp := by
      rw [h] at hview ⊢
      exact rechooseViews_same hview
    exact ⟨same.record, same.dirty, same.synthetic⟩
  · have hz' : (z, p, row, zone) ∈ t.scene.zones := by
      have : t.scene.zones = s.scene.zones := by
        show Scene.zones _ = Scene.zones _
        unfold Scene.zones Scene.panel State.scene
        dsimp only
        rw [hbank]
      rwa [this]
    have hwf' : t.scene.bank.zones.wf := by
      show t.tables.activeBank.zones.wf
      rw [hbank]
      exact hwf
    have hfind := rechooseViews_runtime hwf' s.disp hz'
    rw [← h] at hfind
    refine ⟨fun hn => ?_, fun hn => ?_⟩
    · rw [← pagedZone_iff] at hn
      rw [hfind, if_pos hn, hphase]
      exact startRuntime_starts _ _ _ _ _
    · rw [← pagedZone_iff] at hn
      rw [hfind, if_neg hn]

end Sys2Proof.Machine

/-! Views chosen: what each operation keeps, and a MODE. -/

namespace Sys2Proof.Machine

open Claims

/-! ### A MODE (R118) -/

theorem modeOf?_code (m : DeviceMode) : modeOf? m.code = some m := by cases m <;> rfl

theorem takeMode_held {m : DeviceMode} {s : State} (h : s.mgmt.mode = m) : takeMode m.code s = s := by
  simp only [takeMode, modeOf?_code, if_pos h.symm]

theorem takeMode_other {m : DeviceMode} {s : State} (h : s.mgmt.mode ≠ m) :
    takeMode m.code s = State.onDisplay { s with mgmt := { s.mgmt with mode := m } } rechooseViews := by
  simp only [takeMode, modeOf?_code, if_neg (Ne.symm h)]

theorem setMode_changes (s : State) (m : DeviceMode) :
    OnlyChanges [.mode] s { s with mgmt := { s.mgmt with mode := m } } := fun part hp => by
  cases part <;> simp_all [State.agrees]

/-- Settles O35. -/
theorem modeChoosesTheViewsAgain : Obligations.ModeChoosesTheViewsAgain := by
  refine ⟨fun value s hvalue => ⟨_, rfl, ?_⟩, fun m s hm => congrArg Host.Outcome.next (takeMode_held hm),
    fun m s hm => ⟨_, congrArg Host.Outcome.next (takeMode_other hm), rfl, viewsRechosen_of_rechosen rfl rfl, ?_⟩⟩
  · have hbad : modeOf? value = none := match value, hvalue with
      | _ + 3, _ => rfl
    simp only [takeMode, hbad]
    exact refuse_refusedOnly s _ _
  · exact ((setMode_changes s m).mono (by decide)).trans ((onDisplay_changes rechooseViews_changes _).mono (by decide))

/-! ### Views as chosen (R101, R120) -/

/-- Every panel of a display holds the view chosen for it in a scene, and a synthetic zone runs exactly in EMERGENCY. -/
def ShownOk (sc : Scene) (d : Display) : Prop :=
  ∀ p : Fin 16, d.seq.views.get p = (sc.panel p).map (chosenView sc p) ∧
    ((d.seq.synthetic.get p).isSome = true ↔ d.seq.views.get p = some .emergency)

theorem viewsOk_iff (s : State) : ViewsOk s ↔ ShownOk s.scene s.disp := Iff.rfl

/-- What the choice of views needs of a display: no view for an absent panel, and a synthetic zone exactly in
EMERGENCY. -/
def Placed (sc : Scene) (d : Display) : Prop :=
  ∀ p : Fin 16, (sc.panel p = none → d.seq.views.get p = none) ∧
    ((d.seq.synthetic.get p).isSome = true ↔ d.seq.views.get p = some .emergency)

theorem ShownOk.placed {sc sc' : Scene} {d : Display} (h : ShownOk sc d) (hbank : sc'.bank = sc.bank) : Placed sc' d :=
  fun p => ⟨fun hp => by
    have : sc.panel p = none := by rw [← hp, Scene.panel, Scene.panel, hbank]
    rw [(h p).1, this]
    rfl, (h p).2⟩

theorem Placed.rechoose {sc : Scene} {d : Display} (h : Placed sc d) : ShownOk sc (rechooseViews sc d) := fun p => by
  cases hrow : sc.panel p with
  | none =>
    have same := rechooseViews_absent sc (d := d) hrow
    rw [same.view, same.synthetic]
    exact ⟨(h p).1 hrow, (h p).2⟩
  | some row =>
    have hview := rechooseViews_view sc (d := d) hrow
    refine ⟨hview, ?_⟩
    by_cases hstays : d.seq.views.get p = some (chosenView sc p row)
    · have same := rechooseViews_stays sc hrow hstays
      rw [same.view, same.synthetic]
      exact (h p).2
    · rw [hview, (rechooseViews_changed sc hrow hstays).synthetic]
      by_cases hemergency : chosenView sc p row = .emergency <;> simp [hemergency]

/-- A view chosen reads the slots' records, the mode and SILENT alone. -/
theorem chosenView_congr {sc sc' : Scene} (hslots : ∀ i, (sc'.slots.get i).record? = (sc.slots.get i).record?)
    (hmode : sc'.mode = sc.mode) (hsilent : sc'.silent = sc.silent) (p : Fin 16) (row : PanelRow) :
    chosenView sc' p row = chosenView sc p row := by
  have hemergency : emergencyFor sc' p = emergencyFor sc p := by
    have hiff : emergencyFor sc' p = true ↔ emergencyFor sc p = true := by
      rw [emergencyFor_iff, emergencyFor_iff]
      unfold Emergency
      simp only [hslots]
    cases h : emergencyFor sc p <;> simp_all
  unfold chosenView
  rw [hemergency, hmode, hsilent]

/-- Views stay as chosen where nothing that the choice reads changes, nor the views and which synthetic zones run. -/
theorem ShownOk.congr {sc sc' : Scene} {d e : Display} (h : ShownOk sc d) (hbank : sc'.bank = sc.bank)
    (hslots : ∀ i, (sc'.slots.get i).record? = (sc.slots.get i).record?) (hmode : sc'.mode = sc.mode)
    (hsilent : sc'.silent = sc.silent) (hviews : e.seq.views = d.seq.views)
    (hsynthetic : ∀ p, (e.seq.synthetic.get p).isSome = (d.seq.synthetic.get p).isSome) : ShownOk sc' e := fun p => by
  have hpanel : sc'.panel p = sc.panel p := by rw [Scene.panel, Scene.panel, hbank]
  have hchosen : chosenView sc' p = chosenView sc p := funext (chosenView_congr hslots hmode hsilent p)
  rw [hviews, hsynthetic p, hpanel, hchosen]
  exact h p

/-- Lines of a message place marked: a zone's on a panel in NORMAL, a synthetic zone's always (R85, R101). -/
def Display.markPlace (d : Display) (pl : MessagePlace) (lines : List Nat) : Display :=
  match pl.zone with
  | some _ => d.markContent pl.panel pl.row lines
  | none => d.mark pl.panel pl.row lines

@[simp] theorem markPlace_seq (d : Display) (pl : MessagePlace) (lines : List Nat) : (d.markPlace pl lines).seq = d.seq := by
  unfold Display.markPlace
  split
  · exact markContent_seq _ _ _ _
  · rfl

section
variable (ref : MsgZone) (f : MessagePlace → Scene → MessageRuntime → MessageRuntime × Mark) (sc : Scene) (d : Display)

theorem onMessage_some {d : Display} {pl : MessagePlace} {rt : MessageRuntime}
    (hpl : messagePlace? sc d.seq.phase ref = some pl) (hrt : d.messageRuntime? ref = some rt) :
    onMessage ref f sc d =
      (d.markPlace pl (pl.markLines (sc.bank.font (pl.shownFont sc rt.showing)).height (f pl sc rt).2)).setMessageRuntime
        ref (f pl sc rt).1 := by
  simp only [onMessage, hpl, hrt]
  rfl

theorem onMessage_none {d : Display} (h : messagePlace? sc d.seq.phase ref = none ∨ d.messageRuntime? ref = none) :
    onMessage ref f sc d = d := by
  unfold onMessage
  split
  next pl rt hpl hrt => rcases h with h | h <;> simp_all
  · rfl

theorem setMessageRuntime_synthetic (d : Display) (rt : MessageRuntime) (p : Fin 16) :
    (d.setMessageRuntime ref rt).seq.synthetic.get p =
      if ref = .synthetic p then some rt else d.seq.synthetic.get p := by
  cases ref with
  | zone z => rfl
  | synthetic q =>
    unfold Display.setMessageRuntime
    dsimp only
    rw [Vec.get_set]
    simp

theorem onMessage_views : (onMessage ref f sc d).seq.views = d.seq.views :=
  (onMessage_changes ref f sc d).views_eq (by decide)

/-- A message place changed runs where it ran. -/
theorem onMessage_synthetic_isSome (p : Fin 16) :
    ((onMessage ref f sc d).seq.synthetic.get p).isSome = (d.seq.synthetic.get p).isSome := by
  cases hpl : messagePlace? sc d.seq.phase ref with
  | none => rw [onMessage_none ref f sc (.inl hpl)]
  | some pl =>
    cases hrt : d.messageRuntime? ref with
    | none => rw [onMessage_none ref f sc (.inr hrt)]
    | some rt =>
      rw [onMessage_some ref f sc hpl hrt, setMessageRuntime_synthetic, markPlace_seq]
      split
      next href =>
        subst href
        have hruns : d.seq.synthetic.get p = some rt := hrt
        simp [hruns]
      · rfl

end

theorem foldl_onMessage_views (f : MessagePlace → Scene → MessageRuntime → MessageRuntime × Mark) (sc : Scene)
    (refs : List MsgZone) (d : Display) : (refs.foldl (fun d ref => onMessage ref f sc d) d).seq.views = d.seq.views :=
  List.foldlRecOn refs _ (motive := fun e => e.seq.views = d.seq.views) rfl fun e he ref _ =>
    (onMessage_views ref f sc e).trans he

theorem foldl_onMessage_synthetic (f : MessagePlace → Scene → MessageRuntime → MessageRuntime × Mark) (sc : Scene)
    (refs : List MsgZone) (d : Display) (p : Fin 16) :
    ((refs.foldl (fun d ref => onMessage ref f sc d) d).seq.synthetic.get p).isSome =
      (d.seq.synthetic.get p).isSome :=
  List.foldlRecOn refs _ (motive := fun e => (e.seq.synthetic.get p).isSome = (d.seq.synthetic.get p).isSome) rfl
    fun e he ref _ => (onMessage_synthetic_isSome ref f sc e p).trans he

theorem Placed.slotChange {sc : Scene} {d : Display} (h : Placed sc d) (i : Fin 8) (newText : Bool) :
    ShownOk sc (slotChange i newText sc d) :=
  Placed.rechoose fun p => by
    rw [foldl_onMessage_views, foldl_onMessage_synthetic]
    exact h p

/-- The display started afresh shows every view as chosen (R105, R120). -/
theorem restartDisplay_shownOk (sc : Scene) (d : Display) : ShownOk sc (restartDisplay sc d) := fun p => by
  refine ⟨Vec.get_tabulate _ p, ?_⟩
  unfold restartDisplay
  dsimp only
  rw [Vec.get_tabulate, Vec.get_tabulate]
  cases hrow : sc.panel p with
  | none => simp
  | some row =>
    by_cases hemergency : chosenView sc p row = .emergency <;> simp [hemergency]

/-! ### What the operations keep of the views -/

theorem viewsOk_dependsOn : DependsOn [.tables, .slots, .mode, .silence, .views, .synthetic] ViewsOk :=
  fun s t hagree hs => by
    have htables : t.tables = s.tables := hagree .tables (by simp)
    have hslots : t.slots = s.slots := hagree .slots (by simp)
    have hmode : t.mgmt.mode = s.mgmt.mode := hagree .mode (by simp)
    obtain ⟨-, hsilent⟩ : _ ∧ t.trunk.silent = s.trunk.silent := hagree .silence (by simp)
    have hviews : t.disp.seq.views = s.disp.seq.views := hagree .views (by simp)
    have hsynthetic : t.disp.seq.synthetic = s.disp.seq.synthetic := hagree .synthetic (by simp)
    refine ShownOk.congr (sc := s.scene) hs ?_ (fun i => ?_) hmode hsilent hviews fun p => by rw [hsynthetic]
    · exact congrArg TableStore.activeBank htables
    · exact congrArg (fun slots => (slots.get i).record?) hslots

theorem ViewsOk.setSlot {s : State} (h : ViewsOk s) (i : Fin 8) (slot : Slot) (newText : Bool) :
    ViewsOk (s.setSlot i slot newText) :=
  Placed.slotChange (sc := State.scene { s with slots := s.slots.set i slot })
    (ShownOk.placed (sc := s.scene) h rfl) i newText

theorem ViewsOk.onContact {s : State} (h : ViewsOk s) (n : Fin 4) (f : Contact → Contact) : ViewsOk (s.onContact n f) :=
  viewsOk_dependsOn.kept (onContact_changes s n f) (by decide) h

theorem ViewsOk.raiseAlert {s : State} (h : ViewsOk s) (n : Fin 4) : ViewsOk (raiseAlert n s) :=
  (h.onContact n _).setSlot _ _ _

theorem ViewsOk.clearAlert {s : State} (h : ViewsOk s) (n : Fin 4) : ViewsOk (clearAlert n s) :=
  (h.onContact n _).setSlot _ _ _

theorem ViewsOk.judgeLevel {s : State} (h : ViewsOk s) (n : Fin 4) : ViewsOk (judgeLevel n s) := by
  unfold Machine.judgeLevel
  split
  · exact h.raiseAlert n
  · exact h

theorem ViewsOk.expireFilter {s : State} (h : ViewsOk s) (n : Fin 4) : ViewsOk (expireFilter n s) := by
  unfold Machine.expireFilter
  dsimp only
  split
  · exact h
  · split
    · exact (h.onContact n _).raiseAlert n
    · exact h.onContact n _

theorem ViewsOk.expireSettling {s : State} (h : ViewsOk s) (n : Fin 4) : ViewsOk (expireSettling n s) := by
  unfold Machine.expireSettling
  split
  · exact h
  · exact (h.onContact n _).judgeLevel n

theorem ViewsOk.takeAckAlert {s : State} (h : ViewsOk s) (contact : Nat) : ViewsOk (takeAckAlert contact s) := by
  unfold Machine.takeAckAlert
  split
  · exact h
  · split
    · exact h
    · split
      · exact h
      · exact h.clearAlert _

theorem ViewsOk.takeMessage {s : State} (h : ViewsOk s) (b : MessageBody) : ViewsOk (takeMessage b s) := by
  unfold Machine.takeMessage
  split
  · exact h.setSlot _ _ _
  · exact h

theorem ViewsOk.takeMessageEnd {s : State} (h : ViewsOk s) (slot : Nat) : ViewsOk (takeMessageEnd slot s) := by
  unfold Machine.takeMessageEnd
  split
  · exact h
  · split
    · exact h.setSlot _ _ _
    · exact h
    · exact h

theorem ViewsOk.tickSlot {s : State} (h : ViewsOk s) (i : Fin 8) : ViewsOk (tickSlot i s) := by
  unfold Machine.tickSlot
  split
  next r n hslot =>
    split
    · exact h.setSlot _ _ _
    · refine ShownOk.congr (sc := s.scene) h rfl (fun j => ?_) rfl rfl rfl fun _ => rfl
      show ((s.slots.set i _).get j).record? = (s.slots.get j).record?
      rw [Vec.get_set]
      split
      next hij => rw [← hij, hslot]; rfl
      · rfl
  · exact h
  · exact h
  · exact h

theorem ViewsOk.takeMode {s : State} (h : ViewsOk s) (value : Nat) : ViewsOk (takeMode value s) := by
  unfold Machine.takeMode
  split
  · exact h
  · split
    · exact h
    next m _ _ =>
      exact Placed.rechoose (sc := State.scene { s with mgmt := { s.mgmt with mode := m } })
        (ShownOk.placed (sc := s.scene) h rfl)

theorem ViewsOk.hearGood {s : State} (h : ViewsOk s) : ViewsOk (hearGood s) := by
  unfold Machine.hearGood
  dsimp only
  split
  · exact Placed.rechoose (sc := (s.onTrunk (TrunkPort.setSilence 0 false)).scene)
      (ShownOk.placed (sc := s.scene) h rfl)
  next hsilent =>
    refine ShownOk.congr (sc := s.scene) h rfl (fun _ => rfl) rfl ?_ rfl fun _ => rfl
    exact (Bool.eq_false_iff.mpr hsilent).symm

theorem ViewsOk.tickSilence {s : State} (h : ViewsOk s) : ViewsOk (tickSilence s) := by
  unfold Machine.tickSilence
  split
  · exact Placed.rechoose (sc := (s.onTrunk (TrunkPort.setSilence (saturate 65535 s.trunk.silence) true)).scene)
      (ShownOk.placed (sc := s.scene) h rfl)
  · exact ShownOk.congr (sc := s.scene) h rfl (fun _ => rfl) rfl rfl rfl fun _ => rfl

theorem ViewsOk.tickSwap {s : State} (h : ViewsOk s) : ViewsOk (tickSwap s) := by
  unfold Machine.tickSwap
  split
  · exact restartDisplay_shownOk _ _
  · exact h

theorem ViewsOk.onMessage {s : State} (h : ViewsOk s) (ref : MsgZone)
    (f : MessagePlace → Scene → MessageRuntime → MessageRuntime × Mark) : ViewsOk (s.onDisplay (onMessage ref f)) :=
  ShownOk.congr (sc := s.scene) h rfl (fun _ => rfl) rfl rfl (onMessage_views ref f _ _)
    (onMessage_synthetic_isSome ref f _ _)

/-- A change of the Table Store that leaves the active bank leaves the views as chosen. -/
theorem ViewsOk.setTables {s : State} (h : ViewsOk s) {t : TableStore} (hbank : t.activeBank = s.tables.activeBank) :
    ViewsOk { s with tables := t } :=
  ShownOk.congr (sc := s.scene) h hbank (fun _ => rfl) rfl rfl rfl fun _ => rfl

theorem tickZone_synthetic_isSome (z : Fin 192) (sc : Scene) (d : Display) (p : Fin 16) :
    ((tickZone z sc d).seq.synthetic.get p).isSome = (d.seq.synthetic.get p).isSome := by
  unfold tickZone
  split
  · split
    · rw [(turnPage_changes z.val sc d).synthetic_eq (by decide)]
    · rfl
  · split
    · rw [(stepTile_changes z.val sc d).synthetic_eq (by decide)]
    · rfl
  · exact onMessage_synthetic_isSome _ _ sc d p
  · rfl
  · rfl

theorem tickDwells_synthetic_isSome (sc : Scene) (d : Display) (p : Fin 16) :
    ((tickDwells sc d).seq.synthetic.get p).isSome = (d.seq.synthetic.get p).isSome := by
  have zoned (zones : List (Fin 192)) :
      ((zones.foldl (fun d z => tickZone z sc d) d).seq.synthetic.get p).isSome = (d.seq.synthetic.get p).isSome :=
    List.foldlRecOn zones _ (motive := fun e => (e.seq.synthetic.get p).isSome = (d.seq.synthetic.get p).isSome) rfl
      fun e he z _ => (tickZone_synthetic_isSome z sc e p).trans he
  unfold tickDwells
  dsimp only
  exact List.foldlRecOn (List.finRange 16) _
    (motive := fun e => (e.seq.synthetic.get p).isSome = (d.seq.synthetic.get p).isSome) (zoned _)
    fun e he q _ => (onMessage_synthetic_isSome _ _ sc e p).trans he

theorem ViewsOk.tickDwells {s : State} (h : ViewsOk s) : ViewsOk (s.onDisplay tickDwells) :=
  ShownOk.congr (sc := s.scene) h rfl (fun _ => rfl) rfl rfl ((tickDwells_changes _ _).views_eq (by decide))
    (tickDwells_synthetic_isSome _ _)

theorem viewsOk_secondKept : SecondKept ViewsOk where
  clock s := viewsOk_dependsOn.kept (tickClock_changes s) (by decide)
  ages s := viewsOk_dependsOn.kept (growAges_changes s) (by decide)
  slot _ i h := h.tickSlot i
  dwells _ h := h.tickDwells
  language s dwell _ := viewsOk_dependsOn.kept (onDisplay_changes (tickLanguage_changes dwell) s) (by decide)
  silence _ h := h.tickSilence
  swap _ h := h.tickSwap
  refresh s cycle := viewsOk_dependsOn.kept (onDisplay_changes (refreshPanels_changes cycle) s) (by decide)
  probes s := viewsOk_dependsOn.kept (onDisplay_changes (fun _ d => tickProbes_changes d) s) (by decide)

theorem ViewsOk.takeTableLoad {s : State} (h : ViewsOk s) (table index : Nat) (record : List Byte) :
    ViewsOk (takeTableLoad table index record s) := by
  unfold Machine.takeTableLoad
  split
  · exact h
  · split
    · exact h
    · split
      · exact h.setTables (setStandbyBank_activeBank s.tables _)
      · exact h.setTables (t := { s.tables with standby := .faulted }) rfl

theorem ViewsOk.switchContact {s : State} (h : ViewsOk s) (n : Fin 4) (was on : Bool) :
    ViewsOk (switchContact n was on s) := by
  unfold Machine.switchContact
  dsimp only
  split
  · exact h
  · split
    · exact (h.onContact n _).judgeLevel n
    · split
      · exact (h.onContact n _).clearAlert n
      · exact h.onContact n _

theorem ViewsOk.setting {s : State} (h : ViewsOk s) (f : Settings → Settings) (v w : Nat) :
    ViewsOk ((s.onSettings f).noteClamp v w) :=
  viewsOk_dependsOn.kept (setting_changes s f v w) (by decide) h

/-- The commands that reach the views, or what their choice reads, leave the views as chosen. -/
theorem viewsOk_touched (c : Instr) (s t : State)
    (htouch : touches [.tables, .slots, .mode, .silence, .views, .synthetic] c = true) (hc : elementary c = true)
    (hexec : exec c s = .next t) (h : ViewsOk s) : ViewsOk t := by
  cases c with
  | trunkCell | returnCell | characterArrival | cellAbandoned | setUnknownSetting | queryUnknownKind => cases hc
  | timebaseSecond =>
    obtain rfl := Host.Outcome.next.inj hexec
    exact viewsOk_secondKept.takeSecond h
  | silent =>
    obtain rfl := Host.Outcome.next.inj hexec
    split
    · exact h.tickSilence
    · exact h
  | swapApplied =>
    obtain rfl := Host.Outcome.next.inj hexec
    exact h.tickSwap
  | messageDurationExpiry i =>
    obtain rfl := Host.Outcome.next.inj hexec
    split
    · exact h.tickSlot i
    · exact h
  | messageDwellExpiry ref =>
    obtain rfl := Host.Outcome.next.inj hexec
    split
    · split
      · exact h.onMessage ref _
      · exact h
    · exact h
  | scrollStep ref =>
    obtain rfl := Host.Outcome.next.inj hexec
    exact h.onMessage ref _
  | message b =>
    obtain rfl := Host.Outcome.next.inj hexec
    exact h.takeMessage b
  | messageEnd slot =>
    obtain rfl := Host.Outcome.next.inj hexec
    exact h.takeMessageEnd slot
  | filterExpiry n =>
    obtain rfl := Host.Outcome.next.inj hexec
    exact h.expireFilter n
  | settlingExpiry n =>
    obtain rfl := Host.Outcome.next.inj hexec
    exact h.expireSettling n
  | ackAlert contact =>
    obtain rfl := Host.Outcome.next.inj hexec
    exact h.takeAckAlert contact
  | mode value =>
    obtain rfl := Host.Outcome.next.inj hexec
    exact h.takeMode value
  | tableLoad table index record =>
    obtain rfl := Host.Outcome.next.inj hexec
    exact h.takeTableLoad table index record
  | bankCopy =>
    obtain rfl := Host.Outcome.next.inj hexec
    unfold takeBankCopy
    split
    · exact h
    · exact h.setTables (t := { s.tables with standby := .copying, copyTimer := some copyTime }) rfl
  | bankCopyComplete =>
    obtain rfl := Host.Outcome.next.inj hexec
    split
    · exact h.setTables (setStandbyBank_activeBank s.tables _)
    · exact h
  | bankClear =>
    obtain rfl := Host.Outcome.next.inj hexec
    unfold takeBankClear
    split
    · exact h
    · exact h.setTables (setStandbyBank_activeBank s.tables _)
  | bankSwap =>
    obtain rfl := Host.Outcome.next.inj hexec
    unfold takeBankSwap
    split
    · exact h
    · split
      · exact h
      · exact h.setTables (t := { s.tables with swapPending := true }) rfl
  | setContactEnable n v =>
    obtain rfl := Host.Outcome.next.inj hexec
    exact (h.setting _ v _).switchContact n _ _
  | setContactMode n v | setContactPolarity n v =>
    obtain rfl := Host.Outcome.next.inj hexec
    exact (h.setting _ v _).judgeLevel n
  | restart broadcast =>
    obtain rfl := Host.Outcome.next.inj hexec
    exact restartDisplay_shownOk _ _
  | externalReset =>
    obtain rfl := Host.Outcome.next.inj hexec
    exact fun p => ⟨Vec.get_fill _ p, by
      show ((Vec.fill 16 none : Vec (Option MessageRuntime) 16).get p).isSome = true ↔
        (Vec.fill 16 none : Vec (Option PanelView) 16).get p = some .emergency
      simp⟩
  | _ => exact nomatch htouch

theorem viewsOk_stepKept : StepKept ViewsOk :=
  viewsOk_dependsOn.stepKept (by decide) (fun _ h => h.hearGood) viewsOk_touched

/-- Settles O11: a change of what the choice of views reads is followed by the choice. -/
theorem everyStepKeepsViewsChosen : Obligations.EveryStepKeepsViewsChosen := fun _ _ hs hstep =>
  viewsOk_stepKept.step hstep hs

end Sys2Proof.Machine

/-! Lines and panel-bus records: the operations that only mark lines and set pending work, and what the rest keep of the
dirty lines, the cursors and the panels' states. -/

namespace Sys2Proof.Machine

open Claims

/-! ### Operations that only mark lines and set pending work -/

/-- A panel-bus record with the same state, count and probe (R142, R150, R152). -/
def SameHealth (r r' : PanelBusRecord) : Prop :=
  r'.state = r.state ∧ r'.failures = r.failures ∧ r'.probeTimer = r.probeTimer ∧ r'.probeDue = r.probeDue

theorem SameHealth.refl (r : PanelBusRecord) : SameHealth r r := ⟨rfl, rfl, rfl, rfl⟩

theorem SameHealth.trans {r r' r'' : PanelBusRecord} (h : SameHealth r r') (k : SameHealth r' r'') : SameHealth r r'' :=
  ⟨k.1.trans h.1, k.2.1.trans h.2.1, k.2.2.1.trans h.2.2.1, k.2.2.2.trans h.2.2.2⟩

/-- From one display to another lines of present panels, below their heights, have been marked, and nothing else has
happened to dirty lines, cursors and the panels' states, counts and probes. -/
structure Drawn (panel : Fin 16 → Option PanelRow) (d e : Display) : Prop where
  marks : ∀ p, ∃ ys, e.lines.dirty.get p = addLines ys (d.lines.dirty.get p) ∧
    ∀ y ∈ ys, ∃ row, panel p = some row ∧ y < row.height
  cursor : e.lines.cursor = d.lines.cursor
  health : ∀ p, SameHealth (d.panels.get p) (e.panels.get p)

section
variable {panel : Fin 16 → Option PanelRow}

theorem Drawn.of_eq {d e : Display} (hlines : e.lines = d.lines) (hpanels : e.panels = d.panels) : Drawn panel d e where
  marks p := ⟨[], by rw [hlines]; rfl, nofun⟩
  cursor := by rw [hlines]
  health p := by rw [hpanels]; exact SameHealth.refl _

theorem Drawn.refl (d : Display) : Drawn panel d d := Drawn.of_eq rfl rfl

theorem Drawn.trans {d e f : Display} (h : Drawn panel d e) (k : Drawn panel e f) : Drawn panel d f where
  marks p := by
    obtain ⟨ys, hys, hin⟩ := h.marks p
    obtain ⟨zs, hzs, hin'⟩ := k.marks p
    refine ⟨ys ++ zs, by rw [hzs, hys]; exact (List.foldl_append ..).symm, fun y hy => ?_⟩
    rcases List.mem_append.mp hy with hy | hy
    · exact hin y hy
    · exact hin' y hy
  cursor := k.cursor.trans h.cursor
  health p := (h.health p).trans (k.health p)

theorem Drawn.foldl {α : Type} {f : Display → α → Display} {l : List α} (h : ∀ d, ∀ a ∈ l, Drawn panel d (f d a))
    (d : Display) : Drawn panel d (l.foldl f d) :=
  List.foldlRecOn l f (motive := Drawn panel d) (Drawn.refl d) fun e he a ha => he.trans (h e a ha)

/-- What was dirty stays dirty. -/
theorem Drawn.mem {d e : Display} (h : Drawn panel d e) {p : Fin 16} {y : Nat} (hy : y ∈ d.lines.dirty.get p) :
    y ∈ e.lines.dirty.get p := by
  obtain ⟨ys, hys, -⟩ := h.marks p
  rw [hys]
  exact mem_addLines.mpr (.inr hy)

theorem Drawn.mark {p : Fin 16} {row : PanelRow} (hrow : panel p = some row) (d : Display) (ys : List Nat) :
    Drawn panel d (d.mark p row ys) where
  marks q := by
    unfold Display.mark
    dsimp only
    rw [Vec.get_update]
    split
    next heq =>
      subst heq
      exact ⟨_, rfl, fun y hy => ⟨row, hrow, of_decide_eq_true (List.mem_filter.mp hy).2⟩⟩
    · exact ⟨[], rfl, nofun⟩
  cursor := rfl
  health _ := SameHealth.refl _

theorem Drawn.markContent {p : Fin 16} {row : PanelRow} (hrow : panel p = some row) (d : Display) (ys : List Nat) :
    Drawn panel d (d.markContent p row ys) := by
  unfold Display.markContent
  split
  · exact Drawn.mark hrow d ys
  · exact Drawn.refl d

theorem Drawn.markPlace {pl : MessagePlace} (hrow : panel pl.panel = some pl.row) (d : Display) (ys : List Nat) :
    Drawn panel d (d.markPlace pl ys) := by
  unfold Display.markPlace
  split
  · exact Drawn.markContent hrow d ys
  · exact Drawn.mark hrow d ys

theorem Drawn.setRuntime (d : Display) (z : Nat) (rt : Option ZoneRuntime) : Drawn panel d (d.setRuntime z rt) :=
  Drawn.of_eq rfl rfl

theorem Drawn.onPanel {f : PanelBusRecord → PanelBusRecord} (hf : ∀ r, SameHealth r (f r)) (d : Display) (p : Fin 16) :
    Drawn panel d (d.onPanel p f) where
  marks _ := ⟨[], rfl, nofun⟩
  cursor := rfl
  health q := by
    unfold Display.onPanel
    dsimp only
    rw [Vec.get_update]
    split
    · exact hf _
    · exact SameHealth.refl _

end

section
variable (sc : Scene)

theorem noticeZone_drawn (n : Notice) (d : Display) {e : Nat × Fin 16 × PanelRow × Zone} (he : e ∈ sc.zones) :
    Drawn sc.panel d (noticeZone sc n d e) := by
  obtain ⟨z, p, row, zone⟩ := e
  obtain ⟨-, -, hrow⟩ := mem_zones.mp he
  unfold noticeZone
  dsimp only
  split
  · split
    · exact Drawn.refl d
    · split
      · exact Drawn.markContent hrow d _
      · split
        · exact (Drawn.markContent hrow d _).trans (Drawn.setRuntime _ z _)
        · exact Drawn.refl d
  · exact Drawn.refl d

theorem takeNotice_drawn (n : Notice) (d : Display) : Drawn sc.panel d (takeNotice n sc d) :=
  Drawn.foldl (fun d _ he => noticeZone_drawn sc n d he) d

theorem clockZone_drawn (d : Display) {e : Nat × Fin 16 × PanelRow × Zone} (he : e ∈ sc.zones) :
    Drawn sc.panel d (clockZone sc d e) := by
  obtain ⟨z, p, row, zone⟩ := e
  obtain ⟨-, -, hrow⟩ := mem_zones.mp he
  unfold clockZone
  dsimp only
  split
  · split
    · exact Drawn.refl d
    · exact (Drawn.markContent hrow d _).trans (Drawn.setRuntime _ z _)
  · exact Drawn.refl d

theorem clockZones_drawn (d : Display) : Drawn sc.panel d (clockZones sc d) :=
  Drawn.foldl (fun d _ he => clockZone_drawn sc d he) d

theorem turnPage_drawn (z : Nat) (d : Display) : Drawn sc.panel d (turnPage z sc d) := by
  unfold turnPage
  split
  next hzone _ =>
    obtain ⟨-, -, hrow⟩ := zone_eq_some_iff.mp hzone
    split
    · exact (Drawn.markContent hrow d _).trans (Drawn.setRuntime _ z _)
    · exact Drawn.refl d
  · exact Drawn.refl d

theorem stepTile_drawn (z : Nat) (d : Display) : Drawn sc.panel d (stepTile z sc d) := by
  unfold stepTile
  split
  next hzone _ =>
    obtain ⟨-, -, hrow⟩ := zone_eq_some_iff.mp hzone
    split
    · exact (Drawn.markContent hrow d _).trans (Drawn.setRuntime _ z _)
    · exact Drawn.refl d
  · exact Drawn.refl d

/-- A message place is of a present panel, whose record it holds. -/
theorem messagePlace?_panel {phase : Phase} {ref : MsgZone} {pl : MessagePlace}
    (h : messagePlace? sc phase ref = some pl) : sc.panel pl.panel = some pl.row := by
  unfold messagePlace? at h
  split at h
  next z =>
    split at h
    next p row zone hzone =>
      obtain ⟨-, -, hrow⟩ := zone_eq_some_iff.mp hzone
      unfold zonePlace? at h
      split at h
      · obtain rfl := Option.some.inj h
        exact hrow
      · cases h
    · cases h
  next p =>
    obtain ⟨row, hrow, rfl⟩ := Option.map_eq_some_iff.mp h
    exact hrow

theorem setMessageRuntime_drawn (panel : Fin 16 → Option PanelRow) (d : Display) (ref : MsgZone) (rt : MessageRuntime) :
    Drawn panel d (d.setMessageRuntime ref rt) := by
  cases ref <;> exact Drawn.of_eq rfl rfl

theorem onMessage_drawn (ref : MsgZone) (f : MessagePlace → Scene → MessageRuntime → MessageRuntime × Mark)
    (d : Display) : Drawn sc.panel d (onMessage ref f sc d) := by
  cases hpl : messagePlace? sc d.seq.phase ref with
  | none => rw [onMessage_none ref f sc (.inl hpl)]; exact Drawn.refl d
  | some pl =>
    cases hrt : d.messageRuntime? ref with
    | none => rw [onMessage_none ref f sc (.inr hrt)]; exact Drawn.refl d
    | some rt =>
      rw [onMessage_some ref f sc hpl hrt]
      exact (Drawn.markPlace (messagePlace?_panel sc hpl) d _).trans (setMessageRuntime_drawn _ _ ref _)

theorem tickZone_drawn (z : Fin 192) (d : Display) : Drawn sc.panel d (tickZone z sc d) := by
  unfold tickZone
  split
  · split
    · exact turnPage_drawn sc z.val d
    · exact Drawn.setRuntime d _ _
  · split
    · exact stepTile_drawn sc z.val d
    · exact Drawn.setRuntime d _ _
  · exact onMessage_drawn sc _ _ d
  · exact Drawn.refl d
  · exact Drawn.refl d

theorem tickDwells_drawn (d : Display) : Drawn sc.panel d (tickDwells sc d) :=
  (Drawn.foldl (fun d z _ => tickZone_drawn sc z d) d).trans
    (Drawn.foldl (fun d _ _ => onMessage_drawn sc _ _ d) _)

theorem sameHealth_command (c : ViewCommand) (r : PanelBusRecord) : SameHealth r { r with viewCommand := some c } :=
  ⟨rfl, rfl, rfl, rfl⟩

theorem commandChange_drawn (panel : Fin 16 → Option PanelRow) (d : Display) (p : Fin 16) (view : PanelView) :
    Drawn panel d (d.commandChange p view) := by
  unfold Display.commandChange
  split
  · exact Drawn.onPanel (sameHealth_command _) d p
  · split
    · exact Drawn.onPanel (sameHealth_command _) d p
    · exact Drawn.refl d

theorem changeView_drawn {p : Fin 16} {row : PanelRow} (hrow : sc.panel p = some row) (view : PanelView) (d : Display) :
    Drawn sc.panel d (changeView sc p row view d) := by
  have entered : Drawn sc.panel d (enterView sc p row view (commandView p row view d)) :=
    (commandChange_drawn sc.panel d p view).trans ((Drawn.mark hrow _ _).trans (Drawn.of_eq rfl rfl))
  unfold changeView
  split
  · generalize enterView sc p row view (commandView p row view d) = e at entered
    obtain ⟨hdirty, hcursor, hpanels⟩ := restartPaging_lines sc p e
    refine entered.trans ⟨fun q => ⟨[], by rw [hdirty]; rfl, nofun⟩, hcursor, fun q => ?_⟩
    rw [hpanels]
    exact SameHealth.refl _
  · exact entered

theorem rechooseView_drawn (d : Display) (p : Fin 16) : Drawn sc.panel d (rechooseView sc d p) := by
  unfold rechooseView
  split
  · exact Drawn.refl d
  next row hrow =>
    split
    · exact Drawn.refl d
    · exact changeView_drawn sc hrow _ d

theorem rechooseViews_drawn (d : Display) : Drawn sc.panel d (rechooseViews sc d) :=
  Drawn.foldl (fun d p _ => rechooseView_drawn sc d p) d

theorem slotChange_drawn (i : Fin 8) (newText : Bool) (d : Display) : Drawn sc.panel d (slotChange i newText sc d) :=
  (Drawn.foldl (fun d ref _ => onMessage_drawn sc ref _ d) d).trans (rechooseViews_drawn sc _)

theorem flipPanel_drawn (d : Display) (p : Fin 16) : Drawn sc.panel d (flipPanel sc d p) := by
  unfold flipPanel
  split
  · exact Drawn.refl d
  next row hrow =>
    split
    · exact Drawn.mark hrow d _
    · split
      · split
        · exact Drawn.mark hrow d _
        · exact Drawn.refl d
      · exact Drawn.refl d
    · exact Drawn.refl d

/-- A flip's marks on one zone (R88). -/
def flipZone (d : Display) (e : Nat × Fin 16 × PanelRow × Zone) : Display :=
  if e.2.2.2.language = .alternate then d.markContent e.2.1 e.2.2.1 (e.2.2.2.lines e.2.2.1) else d

/-- The phase flipped and its count at 0 (R104). -/
def flippedPhase (d : Display) : Display :=
  { d with seq := { d.seq with phase := d.seq.phase.other, langCount := 0 } }

theorem flipPhase_eq (d : Display) :
    flipPhase sc d = (List.finRange 16).foldl (flipPanel sc) (sc.zones.foldl flipZone (flippedPhase d)) := rfl

theorem flipZone_drawn (d : Display) {e : Nat × Fin 16 × PanelRow × Zone} (he : e ∈ sc.zones) :
    Drawn sc.panel d (flipZone d e) := by
  obtain ⟨-, -, hrow⟩ := mem_zones.mp he
  unfold flipZone
  split
  · exact Drawn.markContent hrow d _
  · exact Drawn.refl d

theorem tickLanguage_drawn (dwell : Nat) (d : Display) : Drawn sc.panel d (tickLanguage dwell sc d) := by
  unfold tickLanguage
  split
  · rw [flipPhase_eq]
    refine Drawn.trans (Drawn.of_eq (e := flippedPhase d) rfl rfl) (Drawn.trans (Drawn.foldl (fun d _ he =>
      flipZone_drawn sc d he) _) (Drawn.foldl (fun d p _ => flipPanel_drawn sc d p) _))
  · exact Drawn.of_eq rfl rfl

theorem handBack_drawn (f : Frame) (d : Display) : Drawn sc.panel d (handBack sc f d) := by
  unfold handBack
  split
  · split
    next hrow => exact Drawn.mark hrow d _
    · exact Drawn.refl d
  · refine Drawn.onPanel ?_ d _
    exact fun _ => ⟨rfl, rfl, rfl, rfl⟩
  · refine Drawn.onPanel ?_ d _
    exact fun _ => ⟨rfl, rfl, rfl, rfl⟩

theorem startGap_drawn (f : Frame) (d : Display) : Drawn sc.panel d (startGap sc f d) := by
  unfold startGap
  split
  · refine Drawn.onPanel ?_ d _
    exact fun _ => ⟨rfl, rfl, rfl, rfl⟩
  · exact Drawn.refl d

theorem markGroup_drawn (n : Fin 4) (d : Display) : Drawn sc.panel d (markGroup sc n d) where
  marks _ := ⟨[], rfl, nofun⟩
  cursor := rfl
  health p := by
    unfold markGroup
    rw [Vec.get_mapIdx]
    split
    · split
      · exact ⟨rfl, rfl, rfl, rfl⟩
      · exact SameHealth.refl _
    · exact SameHealth.refl _

end

/-! ### The same of whole states -/

/-- From one state to another the active bank has stayed, and on the display lines have only been marked and work set
pending. -/
structure Redrawn (s t : State) : Prop where
  bank : t.tables.activeBank = s.tables.activeBank
  drawn : Drawn s.scene.panel s.disp t.disp

theorem panel_of_bank {s t : State} (h : t.tables.activeBank = s.tables.activeBank) : t.scene.panel = s.scene.panel :=
  funext fun p => by
    show t.tables.activeBank.panels.find p.val = s.tables.activeBank.panels.find p.val
    rw [h]

theorem Redrawn.refl (s : State) : Redrawn s s := ⟨rfl, Drawn.refl _⟩

theorem Redrawn.trans {s t u : State} (h : Redrawn s t) (k : Redrawn t u) : Redrawn s u :=
  ⟨k.bank.trans h.bank, h.drawn.trans (panel_of_bank h.bank ▸ k.drawn)⟩

/-- A change outside the tables and the display. -/
theorem Redrawn.of_eq {s t : State} (hbank : t.tables.activeBank = s.tables.activeBank) (hdisp : t.disp = s.disp) :
    Redrawn s t := ⟨hbank, by rw [hdisp]; exact Drawn.refl _⟩

theorem Redrawn.onDisplay {f : Scene → Display → Display} (hf : ∀ sc d, Drawn sc.panel d (f sc d)) (s : State) :
    Redrawn s (s.onDisplay f) := ⟨rfl, hf _ _⟩

theorem Redrawn.foldl {α : Type} {f : State → α → State} {l : List α} (h : ∀ s a, Redrawn s (f s a)) (s : State) :
    Redrawn s (l.foldl f s) :=
  List.foldlRecOn l f (motive := Redrawn s) (Redrawn.refl s) fun t ht a _ => ht.trans (h t a)

theorem give_redrawn (s : State) (n : Option Notice) : Redrawn s (s.give n) := by
  unfold State.give
  split
  next n => exact Redrawn.onDisplay (fun sc d => takeNotice_drawn sc n d) s
  · exact Redrawn.refl s

theorem setBoard_redrawn (s : State) (b : Fin 8) (l : List Entry) (n : Option Notice) : Redrawn s (s.setBoard b l n) :=
  Redrawn.trans (t := { s with boards := s.boards.set b l }) (Redrawn.of_eq rfl rfl) (give_redrawn _ n)

theorem changeBoards_redrawn (s : State) (f : Fin 8 → List Entry → List Entry × Option Notice) :
    Redrawn s (s.changeBoards f) :=
  Redrawn.trans (t := { s with boards := s.boards.mapIdx fun b l => (f b l).1 }) (Redrawn.of_eq rfl rfl)
    (Redrawn.foldl (fun t _ => give_redrawn t _) _)

theorem clockChange_redrawn (expire : Bool) (s : State) : Redrawn s (clockChange expire s) :=
  (changeBoards_redrawn s _).trans (Redrawn.onDisplay clockZones_drawn _)

theorem setSlot_redrawn (s : State) (i : Fin 8) (slot : Slot) (newText : Bool) : Redrawn s (s.setSlot i slot newText) :=
  Redrawn.trans (t := { s with slots := s.slots.set i slot }) (Redrawn.of_eq rfl rfl)
    (Redrawn.onDisplay (fun sc d => slotChange_drawn sc i newText d) _)

theorem tickClock_redrawn (s : State) : Redrawn s (tickClock s) := by
  unfold tickClock
  dsimp only
  split
  · exact Redrawn.of_eq rfl rfl
  · exact Redrawn.trans (t := { s with clock := secondClock s.clock }) (Redrawn.of_eq rfl rfl) (clockChange_redrawn _ _)

theorem tickSlot_redrawn (i : Fin 8) (s : State) : Redrawn s (tickSlot i s) := by
  unfold tickSlot
  split
  · split
    · exact setSlot_redrawn s _ _ _
    · exact Redrawn.of_eq rfl rfl
  · exact Redrawn.refl s
  · exact Redrawn.refl s
  · exact Redrawn.refl s

theorem tickSilence_redrawn (s : State) : Redrawn s (tickSilence s) := by
  unfold tickSilence
  split
  · exact Redrawn.trans (t := s.onTrunk (TrunkPort.setSilence (saturate 65535 s.trunk.silence) true))
      (Redrawn.of_eq rfl rfl) (Redrawn.onDisplay rechooseViews_drawn _)
  · exact Redrawn.of_eq rfl rfl

theorem hearGood_redrawn (s : State) : Redrawn s (hearGood s) := by
  unfold hearGood
  dsimp only
  split
  · exact Redrawn.trans (t := s.onTrunk (TrunkPort.setSilence 0 false)) (Redrawn.of_eq rfl rfl)
      (Redrawn.onDisplay rechooseViews_drawn _)
  · exact Redrawn.of_eq rfl rfl

theorem onContact_redrawn (s : State) (n : Fin 4) (f : Contact → Contact) : Redrawn s (s.onContact n f) :=
  Redrawn.of_eq rfl rfl

theorem raiseAlert_redrawn (n : Fin 4) (s : State) : Redrawn s (raiseAlert n s) :=
  (onContact_redrawn s n _).trans (setSlot_redrawn _ _ _ _)

theorem clearAlert_redrawn (n : Fin 4) (s : State) : Redrawn s (clearAlert n s) :=
  (onContact_redrawn s n _).trans (setSlot_redrawn _ _ _ _)

theorem judgeLevel_redrawn (n : Fin 4) (s : State) : Redrawn s (judgeLevel n s) := by
  unfold judgeLevel
  split
  · exact raiseAlert_redrawn n s
  · exact Redrawn.refl s

theorem setGroup_redrawn (s : State) (n : Fin 4) (g : Group) : Redrawn s (s.setGroup n g) := by
  unfold State.setGroup
  dsimp only
  split
  · exact Redrawn.of_eq rfl rfl
  · exact Redrawn.trans (t := { s with light := { s.light with groups := s.light.groups.set n g } })
      (Redrawn.of_eq rfl rfl) (Redrawn.onDisplay (fun sc d => markGroup_drawn sc n d) _)

theorem takeSample_redrawn (n : Fin 4) (v : Nat) (s : State) : Redrawn s (takeSample n v s) :=
  Redrawn.trans (t := { s with light := { s.light with
      sensors := s.light.sensors.set n ((s.light.sensors.get n).sample v) } }) (Redrawn.of_eq rfl rfl)
    (setGroup_redrawn _ n _)

theorem refallAll_redrawn (s : State) : Redrawn s (refallAll s) :=
  Redrawn.foldl (fun s n => by
    unfold refallGroup
    dsimp only
    split
    · exact setGroup_redrawn s n _
    · exact Redrawn.refl s) s

theorem setting_redrawn (s : State) (f : Settings → Settings) (v w : Nat) :
    Redrawn s ((s.onSettings f).noteClamp v w) := by
  unfold State.noteClamp
  split <;> exact Redrawn.of_eq rfl rfl

end Sys2Proof.Machine

/-! Dirty lines and cursors inside their panels, and panel states in agreement with counts and probes (R124, R127, R142,
R150, R152). -/

namespace Sys2Proof.Machine

open Claims

/-! ### One panel's lines and record -/

/-- A panel's dirty lines rise and lie, with its cursor, below its height; an absent panel has none (R124, R127). -/
def PanelLinesOk (row? : Option PanelRow) (dirty : List Nat) (cursor : Nat) : Prop :=
  dirty.Pairwise (· < ·) ∧ (∀ row, row? = some row → (∀ y ∈ dirty, y < row.height) ∧ cursor < row.height) ∧
    (row? = none → dirty = [] ∧ cursor = 0)

/-- A panel's bus record agrees with its presence, count and probe (R142, R150, R152). -/
def RecordOk (row? : Option PanelRow) (r : PanelBusRecord) : Prop :=
  (r.state = .absent ↔ row? = none) ∧ (r.state = .starting ∨ r.state = .online → r.failures < faultCount) ∧
    (r.state = .fault → faultCount ≤ r.failures ∧ r.failures ≤ 255) ∧
    (r.state ≠ .fault → r.probeTimer = none ∧ r.probeDue = false) ∧
    ∀ n, r.probeTimer = some n → 1 ≤ n ∧ n ≤ probePeriod

/-- The lines of every panel of a display. -/
def LinesIn (panel : Fin 16 → Option PanelRow) (d : Display) : Prop :=
  ∀ p, PanelLinesOk (panel p) (d.lines.dirty.get p) (d.lines.cursor.get p)

/-- The bus record of every panel of a display. -/
def RecordsIn (panel : Fin 16 → Option PanelRow) (d : Display) : Prop := ∀ p, RecordOk (panel p) (d.panels.get p)

theorem linesOk_iff (s : State) : LinesOk s ↔ LinesIn s.scene.panel s.disp := by
  refine forall_congr' fun p => and_congr_right fun _ => ?_
  cases s.scene.panel p <;> simp

theorem panelsOk_iff (s : State) : PanelsOk s ↔ RecordsIn s.scene.panel s.disp := Iff.rfl

/-- The Line Coder and the panel records in shape. -/
def CoderOk (s : State) : Prop := LinesOk s ∧ PanelsOk s

/-- The same of a display over the panels of a bank. -/
def CoderIn (panel : Fin 16 → Option PanelRow) (d : Display) : Prop := LinesIn panel d ∧ RecordsIn panel d

theorem coderOk_iff (s : State) : CoderOk s ↔ CoderIn s.scene.panel s.disp :=
  and_congr (linesOk_iff s) (panelsOk_iff s)

/-! ### What the operations keep -/

section
variable {panel : Fin 16 → Option PanelRow} {d e : Display}

theorem LinesIn.drawn (h : LinesIn panel d) (k : Drawn panel d e) : LinesIn panel e := fun p => by
  obtain ⟨hrising, hbelow, habsent⟩ := h p
  obtain ⟨ys, hys, hin⟩ := k.marks p
  rw [hys, k.cursor]
  refine ⟨addLines_rising hrising, fun row hrow => ⟨fun y hy => ?_, (hbelow row hrow).2⟩, fun hnone => ?_⟩
  · rcases mem_addLines.mp hy with hy | hy
    · obtain ⟨row', hrow', hlt⟩ := hin y hy
      rw [hrow, Option.some.injEq] at hrow'
      exact hrow' ▸ hlt
    · exact (hbelow row hrow).1 y hy
  · have hnil : ys = [] := List.eq_nil_iff_forall_not_mem.mpr fun y hy => by
      obtain ⟨row, hrow, -⟩ := hin y hy
      rw [hnone] at hrow
      cases hrow
    rw [hnil]
    exact habsent hnone

theorem SameHealth.recordOk {row? : Option PanelRow} {r r' : PanelBusRecord} (h : SameHealth r r') (k : RecordOk row? r) :
    RecordOk row? r' := by
  obtain ⟨hstate, hfailures, htimer, hdue⟩ := h
  unfold RecordOk
  rw [hstate, hfailures, htimer, hdue]
  exact k

theorem CoderIn.drawn (h : CoderIn panel d) (k : Drawn panel d e) : CoderIn panel e :=
  ⟨h.1.drawn k, fun p => (k.health p).recordOk (h.2 p)⟩

/-- One panel's record changed to one that agrees. -/
theorem CoderIn.onPanel (h : CoderIn panel d) {p : Fin 16} {f : PanelBusRecord → PanelBusRecord}
    (hf : RecordOk (panel p) (f (d.panels.get p))) : CoderIn panel (d.onPanel p f) := by
  refine ⟨h.1, fun q => ?_⟩
  unfold Display.onPanel
  dsimp only
  rw [Vec.get_update]
  split
  next heq => exact heq ▸ hf
  · exact h.2 q

theorem RecordOk.failed {row? : Option PanelRow} {r : PanelBusRecord} (h : RecordOk row? r) : RecordOk row? r.failed := by
  obtain ⟨habsent, hcount, hfault, hprobe, htimer⟩ := h
  have hsaturate := saturate_eq_min 255 r.failures
  unfold PanelBusRecord.failed
  dsimp only
  split
  · exact ⟨habsent, hcount, hfault, hprobe, htimer⟩
  next hstate =>
    obtain ⟨hlow, hhigh⟩ := hfault hstate
    refine ⟨by simpa [hstate] using habsent, by simp [hstate], fun _ => ⟨by dsimp only; omega, by dsimp only; omega⟩,
      fun hne => absurd hstate hne, fun n hn => ?_⟩
    obtain rfl := Option.some.inj hn
    decide
  all_goals
    next hstate =>
      have hlow : r.failures < 8 := hcount (by simp [hstate])
      have hne : row? ≠ none := fun hnone => by simp [habsent.mpr hnone] at hstate
      split
      next heighth =>
        refine ⟨by simp [hne], by simp, fun _ => ⟨heighth, by dsimp only; omega⟩, fun hn => absurd rfl hn, fun n hn => ?_⟩
        obtain rfl := Option.some.inj hn
        decide
      next hless =>
        exact ⟨habsent, fun _ => Nat.lt_of_not_le hless, fun hf => by simp [hstate] at hf, hprobe, htimer⟩

theorem RecordOk.acknowledged {row? : Option PanelRow} {r : PanelBusRecord} (h : RecordOk row? r)
    (hstate : r.state = .starting ∨ r.state = .online) :
    RecordOk row? { r with state := .online, failures := 0 } := by
  obtain ⟨habsent, -, -, hprobe, htimer⟩ := h
  have hne : row? ≠ none := fun hnone => by simp [habsent.mpr hnone] at hstate
  have hidle := hprobe (by rcases hstate with h | h <;> simp [h])
  exact ⟨by simp [hne], fun _ => (by decide : 0 < faultCount), nofun, fun _ => hidle, htimer⟩

theorem RecordOk.starting {row : PanelRow} (view : Option PanelView) :
    RecordOk (some row) (PanelBusRecord.starting view) :=
  ⟨by simp [PanelBusRecord.starting], fun _ => (by decide : 0 < faultCount), nofun, fun _ => ⟨rfl, rfl⟩, nofun⟩

theorem RecordOk.absent : RecordOk none PanelBusRecord.absent :=
  ⟨by simp [PanelBusRecord.absent], by simp [PanelBusRecord.absent], nofun, fun _ => ⟨rfl, rfl⟩, nofun⟩

theorem RecordOk.tickProbe {row? : Option PanelRow} {r : PanelBusRecord} (h : RecordOk row? r) :
    RecordOk row? r.tickProbe := by
  obtain ⟨habsent, hcount, hfault, hprobe, htimer⟩ := h
  unfold PanelBusRecord.tickProbe
  split
  next hstate =>
    split
    next n hn =>
      obtain ⟨-, hlast⟩ := htimer n hn
      split
      · exact ⟨habsent, hcount, hfault, fun hne => absurd hstate hne, nofun⟩
      next hmore =>
        refine ⟨habsent, hcount, hfault, fun hne => absurd hstate hne, fun m hm => ?_⟩
        have := Option.some.inj hm
        omega
    · exact ⟨habsent, hcount, hfault, hprobe, htimer⟩
  · exact ⟨habsent, hcount, hfault, hprobe, htimer⟩

/-- A probe mark taken off. -/
theorem RecordOk.unprobed {row? : Option PanelRow} {r : PanelBusRecord} (h : RecordOk row? r) :
    RecordOk row? { r with palettePending := false, probeDue := false } := by
  obtain ⟨habsent, hcount, hfault, hprobe, htimer⟩ := h
  exact ⟨habsent, hcount, hfault, fun hne => ⟨(hprobe hne).1, rfl⟩, htimer⟩

/-- The probe of a FAULT panel due again (R153). -/
theorem RecordOk.probeAgain {row? : Option PanelRow} {r : PanelBusRecord} (h : RecordOk row? r) :
    RecordOk row? (if r.state = .fault then { r with probeDue := true } else r) := by
  obtain ⟨habsent, hcount, hfault, hprobe, htimer⟩ := h
  split
  next hstate => exact ⟨habsent, hcount, hfault, fun hne => absurd hstate hne, htimer⟩
  · exact ⟨habsent, hcount, hfault, hprobe, htimer⟩

theorem CoderIn.startPanel (h : CoderIn panel d) {p : Fin 16} {row : PanelRow} (hrow : panel p = some row) :
    CoderIn panel (startPanel p row d) := by
  obtain ⟨hlines, hrecords⟩ := h
  obtain ⟨-, hbelow, -⟩ := hlines p
  have hheight : 0 < row.height := Nat.zero_lt_of_lt (hbelow row hrow).2
  refine ⟨fun q => ?_, fun q => ?_⟩
  · unfold Machine.startPanel
    dsimp only
    rw [Vec.get_set, Vec.get_set]
    split
    next heq =>
      subst heq
      refine ⟨List.pairwise_lt_range, fun row' hrow' => ?_, fun hnone => by simp [hrow] at hnone⟩
      rw [hrow, Option.some.injEq] at hrow'
      subst hrow'
      exact ⟨fun y hy => List.mem_range.mp hy, hheight⟩
    · exact hlines q
  · unfold Machine.startPanel
    dsimp only
    rw [Vec.get_set]
    split
    next heq => exact heq ▸ hrow ▸ RecordOk.starting _
    · exact hrecords q

/-- Work taken off a panel's marks. -/
theorem CoderIn.clearWork (h : CoderIn panel d) (p : Fin 16) (w : FrameWork) : CoderIn panel (clearWork p w d) := by
  unfold Machine.clearWork
  split
  · refine ⟨fun q => ?_, h.2⟩
    dsimp only
    rw [Vec.get_update]
    split
    · obtain ⟨hrising, hbelow, habsent⟩ := h.1 q
      exact ⟨hrising.sublist (List.tail_sublist _),
        fun row hrow => ⟨fun y hy => (hbelow row hrow).1 y (List.mem_of_mem_tail hy), (hbelow row hrow).2⟩,
        fun hnone => ⟨by rw [(habsent hnone).1]; rfl, (habsent hnone).2⟩⟩
    · exact h.1 q
  · exact h.onPanel (h.2 p).unprobed
  · exact h.onPanel (SameHealth.recordOk ⟨rfl, rfl, rfl, rfl⟩ (h.2 p))

theorem CoderIn.tickProbes (h : CoderIn panel d) : CoderIn panel (tickProbes d) :=
  ⟨h.1, fun p => by
    unfold Machine.tickProbes
    rw [Vec.get_mapIdx]
    exact (h.2 p).tickProbe⟩

end

section
variable {sc : Scene} {d : Display}

theorem CoderIn.acknowledge (h : CoderIn sc.panel d) (f : Frame) : CoderIn sc.panel (acknowledge sc f d) := by
  unfold Machine.acknowledge
  split
  next hrow => exact h.startPanel hrow
  next hstate => exact h.onPanel ((h.2 _).acknowledged (.inl hstate))
  next hstate => exact h.onPanel ((h.2 _).acknowledged (.inr hstate))
  · exact h

theorem CoderIn.refreshPanel (h : CoderIn sc.panel d) (cycle : Nat) (p : Fin 16) :
    CoderIn sc.panel (refreshPanel cycle sc d p) := by
  unfold Machine.refreshPanel
  split
  · exact h
  next row hrow =>
    split
    · dsimp only
      have marked := h.drawn (Drawn.mark hrow d
        (refreshLines row.height (d.lines.cursor.get p) (ceilDiv row.height cycle)))
      refine ⟨fun q => ?_, marked.2⟩
      obtain ⟨hrising, hbelow, habsent⟩ := marked.1 q
      refine ⟨hrising, fun row' hrow' => ⟨(hbelow row' hrow').1, ?_⟩, fun hnone => ⟨(habsent hnone).1, ?_⟩⟩
      · dsimp only
        rw [Vec.get_set]
        split
        next heq =>
          rw [← heq, hrow, Option.some.injEq] at hrow'
          subst hrow'
          exact Nat.mod_lt _ (Nat.zero_lt_of_lt (hbelow row (heq ▸ hrow)).2)
        · exact (hbelow row' hrow').2
      · dsimp only
        rw [Vec.get_set, if_neg fun heq => by simp [← heq, hrow] at hnone]
        exact (habsent hnone).2
    · exact h

/-- A display started afresh over a sound bank (R126, R128, R143). -/
theorem restartDisplay_coderIn (sc : Scene) (d : Display) (hpanels : TableOk 16 PanelRow.Ok sc.bank.panels) :
    CoderIn sc.panel (restartDisplay sc d) := by
  refine ⟨fun p => ?_, fun p => ?_⟩
  · unfold restartDisplay
    dsimp only
    rw [Vec.get_tabulate, Vec.get_fill]
    cases hrow : sc.panel p with
    | none => exact ⟨List.Pairwise.nil, nofun, fun _ => ⟨rfl, rfl⟩⟩
    | some row =>
      obtain ⟨-, hok⟩ := hpanels.of_find hrow
      obtain ⟨-, -, -, hheight, -⟩ := hok
      refine ⟨List.pairwise_lt_range, fun row' hrow' => ?_, nofun⟩
      obtain rfl := Option.some.inj hrow'
      exact ⟨fun y hy => List.mem_range.mp hy, Nat.lt_of_lt_of_le (by decide) hheight.1⟩
  · unfold restartDisplay
    dsimp only
    rw [Vec.get_tabulate]
    cases hrow : sc.panel p with
    | none => exact RecordOk.absent
    | some row => exact RecordOk.starting _

end

/-! ### Invariants of the display over the panels of a bank -/

/-- A property of the display over the panels of a bank that marking lines and setting work pending keep, that the
panels' outcomes, probes and refreshes keep, and that a start afresh over a sound bank gives. -/
structure CoderKept (sound : Bank → Prop) (I : (Fin 16 → Option PanelRow) → Display → Prop) : Prop where
  drawn : ∀ {panel d e}, Drawn panel d e → I panel d → I panel e
  clearWork : ∀ {panel d} p w, I panel d → I panel (clearWork p w d)
  acknowledge : ∀ {sc : Scene} {d} f, I sc.panel d → I sc.panel (acknowledge sc f d)
  failed : ∀ {panel d} p, I panel d → I panel (d.onPanel p PanelBusRecord.failed)
  probeAgain : ∀ {panel d} p, I panel d →
    I panel (d.onPanel p fun r => if r.state = .fault then { r with probeDue := true } else r)
  tickProbe : ∀ {panel d} p, I panel d → I panel (d.onPanel p PanelBusRecord.tickProbe)
  tickProbes : ∀ {panel d}, I panel d → I panel (tickProbes d)
  refresh : ∀ {sc : Scene} {d} cycle p, I sc.panel d → I sc.panel (refreshPanel cycle sc d p)
  restart : ∀ (sc : Scene) d, sound sc.bank → I sc.panel (restartDisplay sc d)
  reset : I (fun _ => none) Display.reset

theorem coderIn_kept : CoderKept (fun bank => TableOk 16 PanelRow.Ok bank.panels) CoderIn where
  drawn k h := h.drawn k
  clearWork p w h := h.clearWork p w
  acknowledge f h := h.acknowledge f
  failed p h := h.onPanel (h.2 p).failed
  probeAgain p h := h.onPanel (h.2 p).probeAgain
  tickProbe p h := h.onPanel (h.2 p).tickProbe
  tickProbes h := h.tickProbes
  refresh cycle p h := h.refreshPanel cycle p
  restart := restartDisplay_coderIn
  reset := by
    refine ⟨fun p => ?_, fun p => ?_⟩
    · show PanelLinesOk none ((Vec.fill 16 []).get p) ((Vec.fill 16 0).get p)
      rw [Vec.get_fill, Vec.get_fill]
      exact ⟨List.Pairwise.nil, nofun, fun _ => ⟨rfl, rfl⟩⟩
    · show RecordOk none ((Vec.fill 16 PanelBusRecord.absent).get p)
      rw [Vec.get_fill]
      exact RecordOk.absent

/-- The property of the display that a state shows over its active bank. -/
def Shows (I : (Fin 16 → Option PanelRow) → Display → Prop) (s : State) : Prop := I s.scene.panel s.disp

theorem shows_dependsOn {I : (Fin 16 → Option PanelRow) → Display → Prop} {sound : Bank → Prop} (k : CoderKept sound I) :
    DependsOn [.tables, .dirty, .cursors, .panels] (Shows I) := fun s t hagree hs => by
  have htables : t.tables = s.tables := hagree .tables (by simp)
  have hdirty : t.disp.lines.dirty = s.disp.lines.dirty := hagree .dirty (by simp)
  have hcursor : t.disp.lines.cursor = s.disp.lines.cursor := hagree .cursors (by simp)
  have hpanels : t.disp.panels = s.disp.panels := hagree .panels (by simp)
  unfold Shows
  rw [panel_of_bank (congrArg TableStore.activeBank htables)]
  refine k.drawn ⟨fun p => ⟨[], by rw [hdirty]; rfl, nofun⟩, hcursor, fun p => ?_⟩ hs
  rw [hpanels]
  exact SameHealth.refl _

section
variable {sound : Bank → Prop} {I : (Fin 16 → Option PanelRow) → Display → Prop} (k : CoderKept sound I) {s : State}
include k

theorem CoderKept.redrawn {t : State} (h : Shows I s) (hr : Redrawn s t) : Shows I t := by
  unfold Shows
  rw [panel_of_bank hr.bank]
  exact k.drawn hr.drawn h

theorem CoderKept.chooseFrame (h : Shows I s) (b : Bus) : Shows I (chooseFrame b s) := by
  obtain e | ⟨p, row, w, -, -, -, -, e⟩ := chooseFrame_cases b s
  · rw [e]; exact h
  · rw [e]
    exact k.clearWork p w h

theorem CoderKept.chooseAgain (h : Shows I s) (b : Bus) : Shows I (chooseAgain b s) :=
  k.chooseFrame (k.chooseFrame h b) b

theorem CoderKept.onBus (h : Shows I s) (b : Bus) (f : PanelBus → PanelBus) : Shows I (s.onBus b f) :=
  (shows_dependsOn k).kept (onBus_changes s b f) (by simp) h

theorem CoderKept.judgeOutcome (h : Shows I s) (f : Frame) (ack : Bool) : Shows I (judgeOutcome f ack s) := by
  unfold Machine.judgeOutcome
  split
  · exact h
  · refine k.drawn (d := if ack then Machine.acknowledge s.scene f s.disp else failFrame s.scene f s.disp)
      (startGap_drawn s.scene f _) ?_
    split
    · exact k.acknowledge f h
    · exact k.failed _ (k.drawn (handBack_drawn s.scene f s.disp) h)

theorem CoderKept.settleOutcome (h : Shows I s) (b : Bus) (ack : Bool) : Shows I (settleOutcome b ack s) := by
  unfold Machine.settleOutcome
  split
  · exact h
  · exact k.onBus (k.judgeOutcome h _ ack) b _

theorem CoderKept.takeOutcome (h : Shows I s) (b : Bus) (ack : Bool) : Shows I (takeOutcome b ack s) :=
  k.chooseAgain (k.settleOutcome h b ack) b

theorem CoderKept.setClockLow (h : Shows I s) (b : Bus) (low : Bool) : Shows I (s.setClockLow b low) :=
  (shows_dependsOn k).kept (setClockLow_changes s b low) (by decide) h

theorem CoderKept.pullClock (h : Shows I s) (b : Bus) : Shows I (pullClock b s) := by
  have low := k.setClockLow h b true
  unfold Machine.pullClock
  dsimp only
  split
  · exact k.onBus low b _
  · exact k.takeOutcome low b false
  · exact k.onBus low b _
  · exact low

theorem CoderKept.releaseClock (h : Shows I s) (b : Bus) : Shows I (releaseClock b s) := by
  have free := k.setClockLow h b false
  unfold Machine.releaseClock
  dsimp only
  split
  · exact k.onBus free b _
  · exact k.chooseAgain (k.onBus free b _) b
  · exact free
  · exact free

theorem CoderKept.discardAhead (h : Shows I s) (b : Bus) : Shows I (discardAhead b s) := by
  unfold Machine.discardAhead
  split
  · exact h
  next f _ =>
    have handed : Shows I (s.onDisplay fun sc d => (handBack sc f d).onPanel f.panel fun r =>
        if r.state = .fault then { r with probeDue := true } else r) :=
      k.probeAgain f.panel (k.drawn (handBack_drawn s.scene f s.disp) h)
    exact k.onBus handed b _

theorem CoderKept.switchBus (h : Shows I s) (b : Bus) (was on : Bool) : Shows I (switchBus b was on s) := by
  unfold Machine.switchBus
  split
  · exact h
  · split
    · exact k.chooseAgain h b
    · exact k.discardAhead h b

theorem CoderKept.tickSwap (h : Shows I s) (hsound : s.tables.swapPending = true → sound s.tables.swapped.activeBank) :
    Shows I (tickSwap s) := by
  unfold Machine.tickSwap
  split
  next hpending => exact k.restart _ _ (hsound hpending)
  · exact h

theorem CoderKept.refreshPanels (h : Shows I s) (cycle : Nat) :
    Shows I (s.onDisplay (refreshPanels cycle)) := by
  unfold Shows
  show I s.scene.panel (Machine.refreshPanels cycle s.scene s.disp)
  unfold Machine.refreshPanels
  split
  · exact h
  · exact List.foldlRecOn (List.finRange 16) _ (motive := I s.scene.panel) h fun e he p _ => k.refresh cycle p he

/-- A second keeps the property, where a swap gives a sound bank. -/
theorem CoderKept.takeSecond {T : State → Prop} (hT : SecondKept T)
    (hsound : ∀ s, T s → s.tables.swapPending = true → sound s.tables.swapped.activeBank) (ht : T s) (h : Shows I s) :
    Shows I (takeSecond s) := by
  refine (SecondKept.takeSecond (P := fun s => T s ∧ Shows I s) ?_ ⟨ht, h⟩).2
  exact {
    clock := fun s h => ⟨hT.clock s h.1, k.redrawn h.2 (tickClock_redrawn s)⟩
    ages := fun s h => ⟨hT.ages s h.1, k.redrawn h.2 (changeBoards_redrawn s _)⟩
    slot := fun s i h => ⟨hT.slot s i h.1, k.redrawn h.2 (tickSlot_redrawn i s)⟩
    dwells := fun s h => ⟨hT.dwells s h.1, k.redrawn h.2 (Redrawn.onDisplay tickDwells_drawn s)⟩
    language := fun s dwell heq h =>
      ⟨hT.language s dwell heq h.1, k.redrawn h.2 (Redrawn.onDisplay (fun sc d => tickLanguage_drawn sc dwell d) s)⟩
    silence := fun s h => ⟨hT.silence s h.1, k.redrawn h.2 (tickSilence_redrawn s)⟩
    swap := fun s h => ⟨hT.swap s h.1, k.tickSwap h.2 (hsound s h.1)⟩
    refresh := fun s cycle h => ⟨hT.refresh s cycle h.1, k.refreshPanels h.2 cycle⟩
    probes := fun s h => ⟨hT.probes s h.1, k.tickProbes h.2⟩ }

end

/-! ### Every step -/

theorem takeEntry_redrawn (body : EntryBody) (s : State) : Redrawn s (takeEntry body s) := by
  have raised (b : Fin 8) : Redrawn s (s.onFlags (Flags.raiseOverflow b)) := Redrawn.of_eq rfl rfl
  unfold takeEntry
  split
  · unfold postEntry
    dsimp only
    split
    · split
      · exact setBoard_redrawn s _ _ _
      · exact Redrawn.refl s
    · split
      · unfold insertFull
        dsimp only
        split
        · exact (raised _).trans (setBoard_redrawn _ _ _ _)
        · exact raised _
      · exact setBoard_redrawn s _ _ _
  · exact Redrawn.of_eq rfl rfl

theorem takeWithdraw_redrawn (board sid : Nat) (s : State) : Redrawn s (takeWithdraw board sid s) := by
  unfold takeWithdraw
  split
  · split
    · exact Redrawn.of_eq rfl rfl
    · dsimp only
      split
      · exact setBoard_redrawn s _ _ _
      · exact Redrawn.refl s
  · exact Redrawn.of_eq rfl rfl

theorem takeClearBoard_redrawn (board : Nat) (s : State) : Redrawn s (takeClearBoard board s) := by
  unfold takeClearBoard
  split
  · exact setBoard_redrawn s _ _ _
  · exact Redrawn.of_eq rfl rfl

theorem takeTime_redrawn (second : Nat) (s : State) : Redrawn s (takeTime second s) := by
  unfold takeTime
  split
  · exact Redrawn.of_eq rfl rfl
  · dsimp only
    refine Redrawn.trans ?_ (clockChange_redrawn true _)
    split
    · exact Redrawn.trans (changeBoards_redrawn s _) (Redrawn.of_eq rfl rfl)
    · exact Redrawn.of_eq rfl rfl

theorem takePulse_redrawn (s : State) : Redrawn s (takePulse s) := by
  unfold takePulse
  split
  · exact Redrawn.refl s
  · split
    · exact Redrawn.of_eq rfl rfl
    · dsimp only
      split
      · exact Redrawn.of_eq rfl rfl
      · exact Redrawn.trans (t := { s with clock := pulsedClock s.clock }) (Redrawn.of_eq rfl rfl)
          (clockChange_redrawn _ _)

theorem takeMessage_redrawn (b : MessageBody) (s : State) : Redrawn s (takeMessage b s) := by
  unfold takeMessage
  split
  · exact setSlot_redrawn s _ _ _
  · exact Redrawn.of_eq rfl rfl

theorem takeMessageEnd_redrawn (slot : Nat) (s : State) : Redrawn s (takeMessageEnd slot s) := by
  unfold takeMessageEnd
  split
  · exact Redrawn.of_eq rfl rfl
  · split
    · exact setSlot_redrawn s _ _ _
    · exact Redrawn.refl s
    · exact Redrawn.of_eq rfl rfl

theorem expireFilter_redrawn (n : Fin 4) (s : State) : Redrawn s (expireFilter n s) := by
  unfold expireFilter
  dsimp only
  split
  · exact Redrawn.refl s
  · split
    · exact (onContact_redrawn s n _).trans (raiseAlert_redrawn n _)
    · exact onContact_redrawn s n _

theorem expireSettling_redrawn (n : Fin 4) (s : State) : Redrawn s (expireSettling n s) := by
  unfold expireSettling
  split
  · exact Redrawn.refl s
  · exact (onContact_redrawn s n _).trans (judgeLevel_redrawn n _)

theorem takeAckAlert_redrawn (contact : Nat) (s : State) : Redrawn s (takeAckAlert contact s) := by
  unfold takeAckAlert
  split
  · exact Redrawn.of_eq rfl rfl
  · split
    · exact Redrawn.refl s
    · split
      · exact Redrawn.of_eq rfl rfl
      · exact clearAlert_redrawn _ s

theorem takeMode_redrawn (value : Nat) (s : State) : Redrawn s (takeMode value s) := by
  unfold takeMode
  split
  · exact Redrawn.of_eq rfl rfl
  next m _ =>
    split
    · exact Redrawn.refl s
    · exact Redrawn.trans (t := { s with mgmt := { s.mgmt with mode := m } }) (Redrawn.of_eq rfl rfl)
        (Redrawn.onDisplay rechooseViews_drawn _)

theorem takeTableLoad_redrawn (table index : Nat) (record : List Byte) (s : State) :
    Redrawn s (takeTableLoad table index record s) := by
  unfold takeTableLoad
  split
  · exact Redrawn.of_eq rfl rfl
  · split
    · exact Redrawn.of_eq rfl rfl
    · split
      · exact Redrawn.of_eq (setStandbyBank_activeBank s.tables _) rfl
      · exact Redrawn.of_eq rfl rfl

theorem takeBankCopy_redrawn (s : State) : Redrawn s (takeBankCopy s) := by
  unfold takeBankCopy
  split <;> exact Redrawn.of_eq rfl rfl

theorem takeBankClear_redrawn (s : State) : Redrawn s (takeBankClear s) := by
  unfold takeBankClear
  split
  · exact Redrawn.of_eq rfl rfl
  · exact Redrawn.of_eq (setStandbyBank_activeBank s.tables _) rfl

theorem takeBankSwap_redrawn (s : State) : Redrawn s (takeBankSwap s) := by
  unfold takeBankSwap
  split
  · exact Redrawn.of_eq rfl rfl
  · split <;> exact Redrawn.of_eq rfl rfl

theorem switchContact_redrawn (n : Fin 4) (was on : Bool) (s : State) : Redrawn s (switchContact n was on s) := by
  unfold switchContact
  dsimp only
  split
  · exact Redrawn.refl s
  · split
    · exact (onContact_redrawn s n _).trans (judgeLevel_redrawn n _)
    · split
      · exact (onContact_redrawn s n _).trans (clearAlert_redrawn n _)
      · exact onContact_redrawn s n _

/-- The commands that reach the lines, the panel records or the tables keep such a property. -/
theorem CoderKept.touched {sound : Bank → Prop} {I : (Fin 16 → Option PanelRow) → Display → Prop}
    (k : CoderKept sound I) {T : State → Prop} (hT : SecondKept T)
    (hsound : ∀ s, T s → s.tables.swapPending = true → sound s.tables.swapped.activeBank)
    (hrestart : ∀ s, T s → sound s.tables.activeBank) (c : Instr) (s t : State)
    (htouch : touches [.tables, .dirty, .cursors, .panels] c = true) (hc : elementary c = true)
    (hexec : exec c s = .next t) (ht : T s) (h : Shows I s) : Shows I t := by
  cases c with
  | trunkCell | returnCell | characterArrival | cellAbandoned | setUnknownSetting | queryUnknownKind => cases hc
  | entry body =>
    obtain rfl := Host.Outcome.next.inj hexec
    exact k.redrawn h (takeEntry_redrawn body s)
  | withdraw board sid =>
    obtain rfl := Host.Outcome.next.inj hexec
    exact k.redrawn h (takeWithdraw_redrawn board sid s)
  | clearBoard board =>
    obtain rfl := Host.Outcome.next.inj hexec
    exact k.redrawn h (takeClearBoard_redrawn board s)
  | time second =>
    obtain rfl := Host.Outcome.next.inj hexec
    exact k.redrawn h (takeTime_redrawn second s)
  | minutePulse =>
    obtain rfl := Host.Outcome.next.inj hexec
    exact k.redrawn h (takePulse_redrawn s)
  | timebaseSecond =>
    obtain rfl := Host.Outcome.next.inj hexec
    exact k.takeSecond hT hsound ht h
  | stalePeriodPassed b sid =>
    obtain rfl := Host.Outcome.next.inj hexec
    exact k.redrawn h (setBoard_redrawn s b _ _)
  | clockDrifting =>
    obtain rfl := Host.Outcome.next.inj hexec
    split
    · exact k.redrawn h (tickClock_redrawn s)
    · exact h
  | silent =>
    obtain rfl := Host.Outcome.next.inj hexec
    split
    · exact k.redrawn h (tickSilence_redrawn s)
    · exact h
  | languageFlip =>
    obtain rfl := Host.Outcome.next.inj hexec
    split
    · exact k.redrawn h (Redrawn.onDisplay (fun sc d => tickLanguage_drawn sc _ d) s)
    · exact h
  | swapApplied =>
    obtain rfl := Host.Outcome.next.inj hexec
    exact k.tickSwap h (hsound s ht)
  | messageDurationExpiry i =>
    obtain rfl := Host.Outcome.next.inj hexec
    split
    · exact k.redrawn h (tickSlot_redrawn i s)
    · exact h
  | pageTurn z =>
    obtain rfl := Host.Outcome.next.inj hexec
    split
    · exact k.redrawn h (Redrawn.onDisplay (fun sc d => turnPage_drawn sc z.val d) s)
    · exact h
  | tileStep z =>
    obtain rfl := Host.Outcome.next.inj hexec
    split
    · exact k.redrawn h (Redrawn.onDisplay (fun sc d => stepTile_drawn sc z.val d) s)
    · exact h
  | messageDwellExpiry ref =>
    obtain rfl := Host.Outcome.next.inj hexec
    split
    · split
      · exact k.redrawn h (Redrawn.onDisplay (fun sc d => onMessage_drawn sc ref _ d) s)
      · exact h
    · exact h
  | scrollStep ref =>
    obtain rfl := Host.Outcome.next.inj hexec
    exact k.redrawn h (Redrawn.onDisplay (fun sc d => onMessage_drawn sc ref _ d) s)
  | message b =>
    obtain rfl := Host.Outcome.next.inj hexec
    exact k.redrawn h (takeMessage_redrawn b s)
  | messageEnd slot =>
    obtain rfl := Host.Outcome.next.inj hexec
    exact k.redrawn h (takeMessageEnd_redrawn slot s)
  | filterExpiry n =>
    obtain rfl := Host.Outcome.next.inj hexec
    exact k.redrawn h (expireFilter_redrawn n s)
  | settlingExpiry n =>
    obtain rfl := Host.Outcome.next.inj hexec
    exact k.redrawn h (expireSettling_redrawn n s)
  | ackAlert contact =>
    obtain rfl := Host.Outcome.next.inj hexec
    exact k.redrawn h (takeAckAlert_redrawn contact s)
  | mode value =>
    obtain rfl := Host.Outcome.next.inj hexec
    exact k.redrawn h (takeMode_redrawn value s)
  | tableLoad table index record =>
    obtain rfl := Host.Outcome.next.inj hexec
    exact k.redrawn h (takeTableLoad_redrawn table index record s)
  | bankCopy =>
    obtain rfl := Host.Outcome.next.inj hexec
    exact k.redrawn h (takeBankCopy_redrawn s)
  | bankCopyComplete =>
    obtain rfl := Host.Outcome.next.inj hexec
    split
    · exact k.redrawn h (Redrawn.of_eq (setStandbyBank_activeBank s.tables _) rfl)
    · exact h
  | bankClear =>
    obtain rfl := Host.Outcome.next.inj hexec
    exact k.redrawn h (takeBankClear_redrawn s)
  | bankSwap =>
    obtain rfl := Host.Outcome.next.inj hexec
    exact k.redrawn h (takeBankSwap_redrawn s)
  | setStalePeriod v | setCountdownLimit v | setDelayThreshold v =>
    obtain rfl := Host.Outcome.next.inj hexec
    exact k.redrawn h ((setting_redrawn s _ v _).trans (changeBoards_redrawn _ _))
  | setBusEnable b v =>
    obtain rfl := Host.Outcome.next.inj hexec
    exact k.switchBus (k.redrawn h (setting_redrawn s _ v _)) b _ _
  | setSensorFallbackLevel v =>
    obtain rfl := Host.Outcome.next.inj hexec
    exact k.redrawn h ((setting_redrawn s _ v _).trans (refallAll_redrawn _))
  | setContactEnable n v =>
    obtain rfl := Host.Outcome.next.inj hexec
    exact k.redrawn h ((setting_redrawn s _ v _).trans (switchContact_redrawn n _ _ _))
  | setContactMode n v | setContactPolarity n v =>
    obtain rfl := Host.Outcome.next.inj hexec
    exact k.redrawn h ((setting_redrawn s _ v _).trans (judgeLevel_redrawn n _))
  | restart broadcast =>
    obtain rfl := Host.Outcome.next.inj hexec
    exact k.restart _ _ (hrestart s ht)
  | externalReset =>
    obtain rfl := Host.Outcome.next.inj hexec
    exact k.reset
  | lightSample s0 s1 s2 s3 =>
    obtain rfl := Host.Outcome.next.inj hexec
    exact k.redrawn h ((((takeSample_redrawn 0 _ s).trans (takeSample_redrawn 1 _ _)).trans
      (takeSample_redrawn 2 _ _)).trans (takeSample_redrawn 3 _ _))
  | sensorFailed n | sensorRestored n v =>
    obtain rfl := Host.Outcome.next.inj hexec
    split
    · exact k.redrawn h (takeSample_redrawn n _ s)
    · exact h
  | frameChoice b =>
    obtain rfl := Host.Outcome.next.inj hexec
    exact k.chooseFrame h b
  | panelAnswer b data marker =>
    obtain rfl := Host.Outcome.next.inj hexec
    split
    · exact k.takeOutcome h b _
    · exact h
  | panelFault p =>
    obtain rfl := Host.Outcome.next.inj hexec
    split
    · exact k.takeOutcome h _ _
    · exact h
  | answerTimeout b | holdTimeout b =>
    obtain rfl := Host.Outcome.next.inj hexec
    split
    · exact k.takeOutcome h b _
    · exact h
  | clockLineLow b =>
    obtain rfl := Host.Outcome.next.inj hexec
    split
    · exact h
    · exact k.pullClock h b
  | clockLineRelease b =>
    obtain rfl := Host.Outcome.next.inj hexec
    split
    · exact k.releaseClock h b
    · exact h
  | classGapExpiry p =>
    obtain rfl := Host.Outcome.next.inj hexec
    refine k.drawn (Drawn.onPanel ?_ s.disp p) h
    exact fun _ => ⟨rfl, rfl, rfl, rfl⟩
  | probeDue p =>
    obtain rfl := Host.Outcome.next.inj hexec
    split
    · exact k.tickProbe p h
    · exact h
  | _ => exact nomatch htouch

theorem CoderKept.stepKept {sound : Bank → Prop} {I : (Fin 16 → Option PanelRow) → Display → Prop}
    (k : CoderKept sound I) {T : State → Prop} (hstep : StepKept T) (hT : SecondKept T)
    (hsound : ∀ s, T s → s.tables.swapPending = true → sound s.tables.swapped.activeBank)
    (hrestart : ∀ s, T s → sound s.tables.activeBank) : StepKept fun s => T s ∧ Shows I s :=
  hstep.and (shows_dependsOn k) (by decide) (fun s _ h => k.redrawn h (hearGood_redrawn s)) (k.touched hT hsound hrestart)

theorem TableStore.Ok.panels {t : TableStore} (h : t.Ok) : TableOk 16 PanelRow.Ok t.activeBank.panels := by
  obtain ⟨⟨hbank, -⟩, -⟩ := (tableStoreOk_iff t).mp h
  obtain ⟨-, -, -, -, -, -, hpanels, -⟩ := hbank
  exact hpanels

theorem coderIn_stepKept : StepKept fun s => s.tables.Ok ∧ Shows CoderIn s :=
  coderIn_kept.stepKept tablesOk_stepKept tablesOk_secondKept (fun _ h hpending => (h.swapped hpending).panels)
    fun _ h => h.panels

/-- Settles O12: most operations only mark lines of present panels and set work pending; the others are the panels'
outcomes, probes and refreshes, and the display started afresh. -/
theorem everyStepKeepsLinesAndPanels : Obligations.EveryStepKeepsLinesAndPanels :=
  fun s t htables hlines hpanels hstep =>
    (coderOk_iff t).mpr (coderIn_stepKept.step hstep ⟨htables, (coderOk_iff s).mp ⟨hlines, hpanels⟩⟩).2

end Sys2Proof.Machine

/-! The buses' shape, the frames' characters, and the places of frames that no swap has orphaned (R140, R145, R147, R148,
R151, R154, R189). -/

namespace Sys2Proof.Machine

open Claims

/-! ### One bus -/

/-- A bus in its shape, whose frames stand where a bank puts their panels (R147, R154). -/
structure BusPlaced (bank : Bank) (clockLow : Bool) (b : Bus) (bus : PanelBus) : Prop where
  ok : bus.Ok clockLow
  ahead : ∀ f, bus.codedAhead = some f → f.keptAhead bank b = true ∧ f.orphaned = false
  flying : ∀ f, bus.inFlight = some f → f.orphaned = false → f.stillPlaced bank b = true

/-- A frame fit to wait coded ahead on a bus. -/
def Frame.Fits (bank : Bank) (b : Bus) (f : Frame) : Prop :=
  f.keptAhead bank b = true ∧ f.orphaned = false ∧ f.Spelled

theorem Frame.Fits.placed {bank : Bank} {b : Bus} {f : Frame} (h : f.Fits bank b) : f.stillPlaced bank b = true :=
  (Bool.and_eq_true _ _ ▸ h.1).1

section
variable {bank : Bank} {low : Bool} {b : Bus} {bus : PanelBus}

theorem BusPlaced.fits (h : BusPlaced bank low b bus) {f : Frame} (hf : bus.codedAhead = some f) : f.Fits bank b := by
  obtain ⟨hkept, horphaned⟩ := h.ahead f hf
  obtain ⟨-, -, -, -, -, -, -, -, hspelled⟩ := h.ok
  exact ⟨hkept, horphaned, hspelled f hf⟩

/-- The timers of a bus outside AWAITING stand still. -/
theorem PanelBus.Ok.timers_none (h : bus.Ok low) (hstate : bus.state ≠ .awaiting) :
    bus.answerTimer = none ∧ bus.holdTimer = none := by
  obtain ⟨-, hhold, hanswer, -⟩ := h
  constructor
  · exact Option.not_isSome_iff_eq_none.mp fun hsome => hstate (hanswer.mp hsome).1
  · exact Option.not_isSome_iff_eq_none.mp fun hsome => hstate (hhold.mp hsome).1

theorem PanelBus.Ok.inFlight_none (h : bus.Ok low) (hstate : bus.state = .idle ∨ bus.state = .held) :
    bus.inFlight = none := by
  obtain ⟨hflying, -⟩ := h
  refine Option.not_isSome_iff_eq_none.mp fun hsome => ?_
  rcases hstate with hs | hs <;> simp [hs] at hflying <;> simp [hflying] at hsome

/-- A frame started on a bus at rest. -/
theorem startedFrame_placed {f : Frame} (hf : f.Fits bank b) (rate : Nat) (marker : Fin 16) :
    BusPlaced bank false b ⟨.sending, some { f with rate := some rate }, none, marker, none, none⟩ := by
  refine ⟨⟨by simp, by simp, by simp, nofun, by simp, by simp, by simp, fun g hg => ?_, nofun⟩, nofun, fun g hg _ => ?_⟩
  · exact Option.some.inj hg ▸ hf.2.2
  · exact Option.some.inj hg ▸ hf.placed

/-- A bus with no frame in flight. -/
theorem restedBus_placed (marker : Fin 16) :
    BusPlaced bank low b ⟨if low then .held else .idle, none, none, marker, none, none⟩ :=
  ⟨by cases low <;> exact ⟨by simp, by simp, by simp, by simp, by simp, by simp, nofun, nofun, nofun⟩, nofun, nofun⟩

/-- A bus that comes to rest with its clock line released starts its coded-ahead frame. -/
theorem startAhead_placed (hfits : ∀ f, bus.codedAhead = some f → f.Fits bank b) (rate : Nat) :
    BusPlaced bank false b (({ bus with state := .idle, inFlight := none, answerTimer := none, holdTimer := none }
      : PanelBus).startAhead rate) := by
  obtain ⟨state, inFlight, ahead, marker, answer, hold⟩ := bus
  unfold PanelBus.startAhead
  cases ahead with
  | none => exact restedBus_placed (low := false) marker
  | some f => exact startedFrame_placed (hfits f rfl) rate marker

/-- An outcome settles the bus by the level that its clock line then has. -/
theorem BusPlaced.settle (h : BusPlaced bank low b bus) (now : Bool) (rate : Nat) :
    BusPlaced bank now b ((bus.afterOutcome now).startAhead rate) := by
  cases now with
  | false => exact startAhead_placed (fun f hf => h.fits hf) rate
  | true =>
    show BusPlaced bank true b { bus with state := .held, inFlight := none, answerTimer := none, holdTimer := none }
    exact ⟨⟨by simp, by simp, by simp, by simp, by simp, by simp, nofun, nofun, fun f hf => (h.fits hf).2.2⟩, h.ahead, nofun⟩

theorem BusPlaced.release (h : BusPlaced bank true b bus) (hstate : bus.state = .held) (rate : Nat) :
    BusPlaced bank false b (({ bus with state := .idle } : PanelBus).startAhead rate) := by
  obtain ⟨hanswer, hhold⟩ := h.ok.timers_none (by simp [hstate])
  have hflying := h.ok.inFlight_none (.inr hstate)
  have started := startAhead_placed (fun f hf => h.fits hf) rate
  obtain ⟨state, inFlight, ahead, marker, answer, hold⟩ := bus
  subst hanswer hhold hflying
  exact started

/-- A frame for a panel that the bus does not serve takes its place. -/
theorem BusPlaced.place (h : BusPlaced bank low b bus) {f : Frame} (hf : f.Fits bank b) (hnone : bus.codedAhead = none)
    (hother : ∀ g, bus.inFlight = some g → g.panel ≠ f.panel) (rate : Nat) :
    BusPlaced bank low b (bus.place rate f) := by
  unfold PanelBus.place
  split
  next hidle =>
    obtain ⟨hanswer, hhold⟩ := h.ok.timers_none (by simp [hidle])
    obtain ⟨-, -, -, -, hlow, -⟩ := h.ok
    obtain rfl := hlow (.inl hidle)
    unfold PanelBus.start
    rw [hanswer, hhold, hnone]
    exact startedFrame_placed hf rate f.panel
  next hbusy =>
    obtain ⟨hflying, hhold, hanswer, hlow, hhigh, -, -, hspelled, -⟩ := h.ok
    refine ⟨⟨hflying, hhold, hanswer, hlow, hhigh, fun hidle => absurd hidle hbusy, fun g a hg ha => ?_, hspelled,
      fun g hg => ?_⟩, fun g hg => ?_, h.flying⟩
    · exact Option.some.inj ha ▸ hother g hg
    · exact Option.some.inj hg ▸ hf.2.2
    · exact Option.some.inj hg ▸ ⟨hf.1, hf.2.1⟩

theorem BusPlaced.discard (h : BusPlaced bank low b bus) : BusPlaced bank low b { bus with codedAhead := none } := by
  obtain ⟨hflying, hhold, hanswer, hlow, hhigh, -, -, hspelled, -⟩ := h.ok
  exact ⟨⟨hflying, hhold, hanswer, hlow, hhigh, fun _ => rfl, nofun, hspelled, nofun⟩, nofun, h.flying⟩

theorem BusPlaced.sent (h : BusPlaced bank low b bus) (hstate : bus.state = .sending) (time : Nat) :
    BusPlaced bank low b { bus with state := .awaiting, answerTimer := some time } := by
  obtain ⟨-, hhold⟩ := h.ok.timers_none (by simp [hstate])
  obtain ⟨hflying, -, -, -, hlow, -, hother, hspelled, hahead⟩ := h.ok
  obtain rfl := hlow (.inr hstate)
  exact ⟨⟨by simp [hflying, hstate], by simp [hhold], by simp, nofun, by simp, nofun, hother, hspelled, hahead⟩, h.ahead,
    h.flying⟩

/-- The clock line pulled low on a bus at rest. -/
theorem BusPlaced.hold (h : BusPlaced bank low b bus) (hstate : bus.state = .idle ∨ bus.state = .held) :
    BusPlaced bank true b { bus with state := .held } := by
  obtain ⟨hanswer, hhold⟩ := h.ok.timers_none (by rcases hstate with h | h <;> simp [h])
  have hflying := h.ok.inFlight_none hstate
  obtain ⟨-, -, -, -, -, -, hother, hspelled, hahead⟩ := h.ok
  exact ⟨⟨by simp [hflying], by simp [hhold], by simp [hanswer], fun _ => rfl, by simp, nofun, hother, hspelled, hahead⟩,
    h.ahead, h.flying⟩

/-- The answer window of a bus: closed by the clock pulled low, open while it is released. -/
theorem BusPlaced.window (h : BusPlaced bank low b bus) (hstate : bus.state = .awaiting) {now : Bool}
    {answer hold : Option Nat} (hanswer : answer.isSome = true ↔ now = false) (hhold : hold.isSome = true ↔ now = true) :
    BusPlaced bank now b { bus with answerTimer := answer, holdTimer := hold } := by
  obtain ⟨hflying, -, -, -, -, hidle, hother, hspelled, hahead⟩ := h.ok
  exact ⟨⟨hflying, by simp [hstate, hhold], by simp [hstate, hanswer], by simp [hstate], by simp [hstate], hidle, hother,
    hspelled, hahead⟩, h.ahead, h.flying⟩

/-- A swap orphans the frame in flight that the new bank has moved, and keeps a coded-ahead one only in its place. -/
theorem BusPlaced.swapTo (h : BusPlaced bank low b bus) (new : Bank) : BusPlaced new low b (bus.swapTo new b) := by
  obtain ⟨hflying, hhold, hanswer, hlow, hhigh, hidle, hother, hspelled, hahead⟩ := h.ok
  have kept {f : Frame} (hf : (bus.swapTo new b).codedAhead = some f) :
      bus.codedAhead = some f ∧ f.keptAhead new b = true := Option.filter_eq_some_iff.mp hf
  have flown {f : Frame} (hf : (bus.swapTo new b).inFlight = some f) :
      ∃ g, bus.inFlight = some g ∧ { g with orphaned := g.orphaned || !g.stillPlaced new b } = f :=
    Option.map_eq_some_iff.mp hf
  refine ⟨⟨?_, hhold, hanswer, hlow, hhigh, fun hs => ?_, fun f g hf hg => ?_, fun f hf => ?_, fun g hg => ?_⟩,
    fun f hf => ⟨(kept hf).2, (h.ahead f (kept hf).1).2⟩, fun f hf horphaned => ?_⟩
  · show (bus.inFlight.map _).isSome = true ↔ _
    rw [Option.isSome_map]
    exact hflying
  · show bus.codedAhead.filter _ = none
    rw [hidle hs]
    rfl
  · obtain ⟨g', hg', rfl⟩ := flown hf
    exact hother g' g hg' (kept hg).1
  · obtain ⟨g', hg', rfl⟩ := flown hf
    exact hspelled g' hg'
  · exact hahead g (kept hg).1
  · obtain ⟨g', -, rfl⟩ := flown hf
    simpa [Frame.stillPlaced] using (Bool.or_eq_false_iff.mp horphaned).2

end

/-! ### Both buses -/

/-- Both buses in shape, with their frames placed. -/
def BusesPlaced (s : State) : Prop :=
  ∀ b : Bus, BusPlaced s.tables.activeBank (s.pins.clockLow.get b) b (s.buses.get b)

theorem busesPlaced_iff (s : State) : BusesOk s ∧ FramesOk s ↔ BusesPlaced s :=
  ⟨fun ⟨hok, hplaced⟩ b => ⟨hok b, fun f => (hplaced b f).1, fun f => (hplaced b f).2⟩,
    fun h => ⟨fun b => (h b).ok, fun b f => ⟨(h b).ahead f, (h b).flying f⟩⟩⟩

theorem BusesPlaced.of_eq {s t : State} (h : BusesPlaced s) (hbank : t.tables.activeBank = s.tables.activeBank)
    (hbuses : t.buses = s.buses) (hclock : t.pins.clockLow = s.pins.clockLow) : BusesPlaced t := fun b => by
  rw [hbank, hbuses, hclock]
  exact h b

/-- A change of the standby bank and its marks. -/
theorem BusesPlaced.tablesChanged {s t : State} (h : BusesPlaced s) (hbank : Redrawn s t)
    (hframe : OnlyChanges [.tables, .refusal] s t) : BusesPlaced t := fun b => by
  have hpins : t.pins = s.pins := hframe .pins (by decide)
  have hbus : t.buses.get b = s.buses.get b := hframe (.bus b) (by cases b <;> decide)
  rw [hbank.bank, hpins, hbus]
  exact h b

theorem busesPlaced_dependsOn : DependsOn [.tables, .bus .busA, .bus .busB, .pins] BusesPlaced := fun s t hagree h b => by
  have htables : t.tables = s.tables := hagree .tables (by simp)
  have hpins : t.pins = s.pins := hagree .pins (by simp)
  have hbus : t.buses.get b = s.buses.get b := hagree (.bus b) (by cases b <;> simp)
  rw [htables, hpins, hbus]
  exact h b

section
variable {s : State}

theorem BusesPlaced.onBus (h : BusesPlaced s) {b : Bus} {f : PanelBus → PanelBus}
    (hf : BusPlaced s.tables.activeBank (s.pins.clockLow.get b) b (f (s.buses.get b))) : BusesPlaced (s.onBus b f) :=
  fun c => by
    show BusPlaced s.tables.activeBank (s.pins.clockLow.get c) c ((s.buses.set b (f (s.buses.get b))).get c)
    rw [PerBus.get_set]
    split
    next heq => exact heq ▸ hf
    · exact h c

/-- One bus and its clock line changed. -/
theorem BusesPlaced.onLine (h : BusesPlaced s) {b : Bus} {low : Bool} {f : PanelBus → PanelBus}
    (hf : BusPlaced s.tables.activeBank low b (f (s.buses.get b))) : BusesPlaced ((s.setClockLow b low).onBus b f) :=
  fun c => by
    show BusPlaced s.tables.activeBank ((s.pins.clockLow.set b low).get c) c ((s.buses.set b (f (s.buses.get b))).get c)
    rw [PerBus.get_set, PerBus.get_set]
    split
    next heq => exact heq ▸ hf
    · exact h c

/-- The frame built for the panel a bus chooses is fit to wait on it. -/
theorem buildFrame_fits {b : Bus} {p : Fin 16} {row : PanelRow} {w : FrameWork} (hrow : s.scene.panel p = some row)
    (hbus : row.bus = b) (hline : ∀ y, w = .line y → y < row.height) :
    (buildFrame s p row w).Fits s.tables.activeBank b := by
  have hfind : s.tables.activeBank.panels.find p.val = some row := hrow
  refine ⟨?_, rfl, buildFrame_spelled s p row w⟩
  unfold Frame.keptAhead Frame.stillPlaced buildFrame
  dsimp only
  rw [hfind]
  cases w with
  | line y => simpa [hbus] using hline y rfl
  | palette | view => simp [hbus]

theorem chosenPanel_isCandidate {b : Bus} {p : Fin 16} (h : chosenPanel s b = some p) : isCandidate s b p = true := by
  unfold chosenPanel at h
  dsimp only at h
  split at h
  next q hq =>
    obtain rfl := Option.some.inj h
    exact (Bool.and_eq_true _ _ ▸ List.find?_some hq).2
  · exact List.find?_some h

/-- The line of a chosen frame is the lowest dirty one. -/
theorem chosenWork_line {d : Display} {p : Fin 16} {y : Nat} (h : chosenWork d p = some (.line y)) :
    (d.lines.dirty.get p).head? = some y := by
  unfold chosenWork at h
  dsimp only at h
  split at h
  · cases h
  · split at h
    · cases h
    · split at h
      · cases h
      · obtain ⟨x, hx, heq⟩ := Option.map_eq_some_iff.mp h
        cases heq
        exact hx

/-- What a candidate is: a present panel of the bus that no frame of the bus serves (R145). -/
theorem isCandidate_iff {b : Bus} {p : Fin 16} : isCandidate s b p = true ↔
    (∃ row, s.scene.panel p = some row ∧ row.bus = b) ∧ hasWork s.disp p = true ∧ (s.panelRecord p).gapTimer = none ∧
      (s.buses.get b).serves p = false := by
  unfold isCandidate
  cases s.scene.panel p <;> simp [and_assoc]

/-- Every dirty line of a present panel lies below its height. -/
def LowLines (panel : Fin 16 → Option PanelRow) (d : Display) : Prop :=
  ∀ p row, panel p = some row → ∀ y ∈ d.lines.dirty.get p, y < row.height

theorem BusesPlaced.chooseFrame (h : BusesPlaced s) (hlow : Shows LowLines s) (b : Bus) :
    BusesPlaced (chooseFrame b s) := by
  obtain e | ⟨p, row, w, hmay, hp, hrow, hw, e⟩ := chooseFrame_cases b s
  · rw [e]; exact h
  rw [e]
  obtain ⟨⟨row', hrow', hbus⟩, -, -, hserves⟩ := isCandidate_iff.mp (chosenPanel_isCandidate hp)
  obtain rfl := Option.some.inj (hrow.symm.trans hrow')
  obtain ⟨⟨hahead, -⟩, -⟩ : ((s.buses.get b).codedAhead = none ∧ _) ∧ (s.buses.get b).state ≠ .held := by
    simpa [mayChoose] using hmay
  have fits : (buildFrame s p row w).Fits s.tables.activeBank b := buildFrame_fits hrow hbus fun y hy =>
    hlow p row hrow y (List.mem_of_head? (chosenWork_line (hy ▸ hw)))
  have other (g : Frame) (hg : (s.buses.get b).inFlight = some g) : g.panel ≠ p := fun heq => by
    simp [PanelBus.serves, hg, heq] at hserves
  exact BusesPlaced.onBus (s := { s with disp := clearWork p w s.disp }) (h.of_eq rfl rfl rfl)
    ((h b).place fits hahead other _)

end

/-! ### Every step -/

theorem lowLines_kept : CoderKept (fun _ => True) LowLines where
  drawn k h := fun p row hrow y hy => by
    obtain ⟨ys, hys, hin⟩ := k.marks p
    rw [hys] at hy
    rcases mem_addLines.mp hy with hy | hy
    · obtain ⟨row', hrow', hlt⟩ := hin y hy
      exact Option.some.inj (hrow'.symm.trans hrow) ▸ hlt
    · exact h p row hrow y hy
  clearWork {panel d} p w h := by
    unfold clearWork
    split
    · refine fun q row hrow y hy => h q row hrow y ?_
      dsimp only at hy
      rw [Vec.get_update] at hy
      split at hy
      · exact List.mem_of_mem_tail hy
      · exact hy
    · exact h
    · exact h
  acknowledge {sc d} f h := by
    unfold acknowledge
    split
    next row hrow =>
      intro q row' hrow' y hy
      unfold startPanel at hy
      dsimp only at hy
      rw [Vec.get_set] at hy
      split at hy
      next heq =>
        subst heq
        obtain rfl := Option.some.inj (hrow.symm.trans hrow')
        exact List.mem_range.mp hy
      · exact h q row' hrow' y hy
    all_goals exact h
  failed p h := h
  probeAgain p h := h
  tickProbe p h := h
  tickProbes h := h
  refresh {sc d} cycle p h := by
    unfold refreshPanel
    split
    · exact h
    next row hrow =>
      split
      · intro q row' hrow' y hy
        rcases mem_mark.mp hy with hy | ⟨heq, -, hlt⟩
        · exact h q row' hrow' y hy
        · subst heq
          exact Option.some.inj (hrow.symm.trans hrow') ▸ hlt
      · exact h
  restart sc d _ := fun p row hrow y hy => by
    unfold restartDisplay at hy
    dsimp only at hy
    rw [Vec.get_tabulate, hrow] at hy
    exact List.mem_range.mp hy
  reset := nofun

/-- The buses placed, and the dirty lines low. -/
def BusLines (s : State) : Prop := BusesPlaced s ∧ Shows LowLines s

section
variable {s : State}

theorem BusLines.chooseFrame (h : BusLines s) (b : Bus) : BusLines (chooseFrame b s) :=
  ⟨h.1.chooseFrame h.2 b, lowLines_kept.chooseFrame h.2 b⟩

theorem BusLines.chooseAgain (h : BusLines s) (b : Bus) : BusesPlaced (chooseAgain b s) :=
  ((h.chooseFrame b).chooseFrame b).1

theorem judgeOutcome_buses (f : Frame) (ack : Bool) (s : State) : (judgeOutcome f ack s).buses = s.buses := by
  unfold judgeOutcome
  split <;> rfl

/-- An outcome on a bus whose clock line may just have changed. -/
theorem takeOutcome_placed (b : Bus) (ack : Bool) (hlines : Shows LowLines s)
    (hflying : (s.buses.get b).inFlight.isSome = true) {low : Bool}
    (hbus : BusPlaced s.tables.activeBank low b (s.buses.get b))
    (hother : ∀ c, c ≠ b → BusPlaced s.tables.activeBank (s.pins.clockLow.get c) c (s.buses.get c)) :
    BusesPlaced (takeOutcome b ack s) := by
  refine BusLines.chooseAgain ⟨?_, lowLines_kept.settleOutcome hlines b ack⟩ b
  obtain ⟨f, hf⟩ := Option.isSome_iff_exists.mp hflying
  have htables : (judgeOutcome f ack s).tables = s.tables := judgeOutcome_changes f ack s .tables (by decide)
  have hpins : (judgeOutcome f ack s).pins = s.pins := judgeOutcome_changes f ack s .pins (by decide)
  intro c
  unfold settleOutcome
  rw [hf]
  show BusPlaced (judgeOutcome f ack s).tables.activeBank ((judgeOutcome f ack s).pins.clockLow.get c) c
    (((judgeOutcome f ack s).buses.set b _).get c)
  rw [htables, hpins, judgeOutcome_buses, PerBus.get_set]
  split
  next heq => exact heq ▸ hbus.settle _ _
  next hne => exact hother c fun heq => hne heq.symm

theorem BusLines.takeOutcome (h : BusLines s) (b : Bus) (ack : Bool) : BusesPlaced (takeOutcome b ack s) := by
  cases hflying : (s.buses.get b).inFlight.isSome with
  | true => exact takeOutcome_placed b ack h.2 hflying (h.1 b) fun c _ => h.1 c
  | false =>
    have hnone : settleOutcome b ack s = s := by
      unfold settleOutcome
      rw [Option.isSome_eq_false_iff.mp hflying |> Option.isNone_iff_eq_none.mp]
    unfold Machine.takeOutcome
    rw [hnone]
    exact h.chooseAgain b

end

section
variable {s : State}

theorem BusesPlaced.tickSwap (h : BusesPlaced s) : BusesPlaced (tickSwap s) := by
  unfold Machine.tickSwap
  split
  · intro b
    cases b with
    | busA => exact (h .busA).swapTo _
    | busB => exact (h .busB).swapTo _
  · exact h

theorem resetBuses_placed (hbuses : s.buses = resetBuses s.pins.clockLow) : BusesPlaced s := fun b => by
  rw [hbuses]
  cases b <;> exact restedBus_placed 15

theorem BusesPlaced.discardAhead (h : BusesPlaced s) (b : Bus) : BusesPlaced (discardAhead b s) := by
  unfold Machine.discardAhead
  split
  · exact h
  next f _ =>
    have handed : BusesPlaced (s.onDisplay fun sc d => (handBack sc f d).onPanel f.panel fun r =>
        if r.state = .fault then { r with probeDue := true } else r) := h.of_eq rfl rfl rfl
    exact handed.onBus (handed b).discard

theorem BusLines.switchBus (h : BusLines s) (b : Bus) (was on : Bool) : BusesPlaced (switchBus b was on s) := by
  unfold Machine.switchBus
  split
  · exact h.1
  · split
    · exact h.chooseAgain b
    · exact h.1.discardAhead b

theorem BusLines.pullClock (h : BusLines s) {b : Bus} (hhigh : s.pins.clockLow.get b = false) :
    BusesPlaced (pullClock b s) := by
  obtain ⟨hbuses, hlow⟩ := h
  have now := hbuses b
  unfold Machine.pullClock
  dsimp only
  split
  next hstate => exact hbuses.onLine (now.window hstate (by simp) (by simp))
  next hstate =>
    obtain ⟨hflying, -⟩ := now.ok
    refine takeOutcome_placed b false (lowLines_kept.setClockLow hlow b true) (hflying.mpr (.inl hstate)) now fun c hc => ?_
    show BusPlaced s.tables.activeBank ((s.pins.clockLow.set b true).get c) c (s.buses.get c)
    rw [PerBus.get_set_of_ne _ (Ne.symm hc)]
    exact hbuses c
  next hstate => exact hbuses.onLine (now.hold (.inl hstate))
  next hstate =>
    obtain ⟨-, -, -, hheld, -⟩ := now.ok
    simp [hheld hstate] at hhigh

theorem BusLines.releaseClock (h : BusLines s) {b : Bus} (hlow : s.pins.clockLow.get b = true) :
    BusesPlaced (releaseClock b s) := by
  obtain ⟨hbuses, hlines⟩ := h
  have now := hbuses b
  rw [hlow] at now
  obtain ⟨-, -, -, -, hhigh, -⟩ := now.ok
  unfold Machine.releaseClock
  dsimp only
  split
  next hstate => exact hbuses.onLine (now.window hstate (by simp) (by simp))
  next hstate =>
    have freed := hbuses.onLine (low := false)
      (f := fun bus => PanelBus.startAhead (s.settings.busRate.get b) { bus with state := .idle }) (now.release hstate (s.settings.busRate.get b))
    exact BusLines.chooseAgain ⟨freed, lowLines_kept.onBus (lowLines_kept.setClockLow hlines b false) b _⟩ b
  next hstate => exact absurd (hhigh (.inl hstate)) (by decide)
  next hstate => exact absurd (hhigh (.inr hstate)) (by decide)

end

theorem busesPlaced_secondKept : SecondKept BusesPlaced where
  clock s h := busesPlaced_dependsOn.kept (tickClock_changes s) (by decide) h
  ages s h := busesPlaced_dependsOn.kept (growAges_changes s) (by decide) h
  slot s i h := busesPlaced_dependsOn.kept (tickSlot_changes i s) (by decide) h
  dwells s h := h
  language s dwell _ h := h
  silence s h := busesPlaced_dependsOn.kept (tickSilence_changes s) (by decide) h
  swap s h := h.tickSwap
  refresh s cycle h := h
  probes s h := h

/-- The commands that reach the tables, the buses or the pins keep the buses placed. -/
theorem busesPlaced_touched (c : Instr) (s t : State)
    (htouch : touches [.tables, .bus .busA, .bus .busB, .pins] c = true) (hc : elementary c = true)
    (hexec : exec c s = .next t) (hlines : True ∧ Shows LowLines s) (h : BusesPlaced s) : BusesPlaced t := by
  have both : BusLines s := ⟨h, hlines.2⟩
  have outcome (b : Bus) (ack : Bool) : BusesPlaced (takeOutcome b ack s) := both.takeOutcome b ack
  cases c with
  | trunkCell | returnCell | characterArrival | cellAbandoned | setUnknownSetting | queryUnknownKind => cases hc
  | timebaseSecond =>
    obtain rfl := Host.Outcome.next.inj hexec
    exact busesPlaced_secondKept.takeSecond h
  | swapApplied =>
    obtain rfl := Host.Outcome.next.inj hexec
    exact h.tickSwap
  | tableLoad table index record =>
    obtain rfl := Host.Outcome.next.inj hexec
    exact h.tablesChanged (takeTableLoad_redrawn table index record s) (takeTableLoad_changes table index record s)
  | bankCopy =>
    obtain rfl := Host.Outcome.next.inj hexec
    exact h.tablesChanged (takeBankCopy_redrawn s) (takeBankCopy_changes s)
  | bankCopyComplete =>
    obtain rfl := Host.Outcome.next.inj hexec
    split
    · exact h.of_eq (setStandbyBank_activeBank s.tables _) rfl rfl
    · exact h
  | bankClear =>
    obtain rfl := Host.Outcome.next.inj hexec
    exact h.tablesChanged (takeBankClear_redrawn s) (takeBankClear_changes s)
  | bankSwap =>
    obtain rfl := Host.Outcome.next.inj hexec
    exact h.tablesChanged (takeBankSwap_redrawn s) (takeBankSwap_changes s)
  | setBusEnable b v =>
    obtain rfl := Host.Outcome.next.inj hexec
    exact BusLines.switchBus ⟨busesPlaced_dependsOn.kept (setting_changes s _ v _) (by decide) h,
      lowLines_kept.redrawn hlines.2 (setting_redrawn s _ v _)⟩ b _ _
  | restart broadcast =>
    obtain rfl := Host.Outcome.next.inj hexec
    exact resetBuses_placed rfl
  | externalReset =>
    obtain rfl := Host.Outcome.next.inj hexec
    exact resetBuses_placed rfl
  | frameChoice b =>
    obtain rfl := Host.Outcome.next.inj hexec
    exact h.chooseFrame hlines.2 b
  | frameSent b =>
    obtain rfl := Host.Outcome.next.inj hexec
    split
    next hstate => exact h.onBus ((h b).sent hstate _)
    · exact h
  | panelAnswer b data marker =>
    obtain rfl := Host.Outcome.next.inj hexec
    split
    · exact outcome b _
    · exact h
  | panelFault p =>
    obtain rfl := Host.Outcome.next.inj hexec
    split
    · exact outcome _ _
    · exact h
  | answerTimeout b | holdTimeout b =>
    obtain rfl := Host.Outcome.next.inj hexec
    split
    · exact outcome b _
    · exact h
  | clockLineLow b =>
    obtain rfl := Host.Outcome.next.inj hexec
    split
    · exact h
    next hhigh => exact both.pullClock (by simpa using hhigh)
  | clockLineRelease b =>
    obtain rfl := Host.Outcome.next.inj hexec
    split
    next hlow => exact both.releaseClock hlow
    · exact h
  | _ => exact nomatch htouch

theorem secondKept_true : SecondKept fun _ => True :=
  ⟨fun _ => id, fun _ => id, fun _ _ => id, fun _ => id, fun _ _ _ => id, fun _ => id, fun _ => id, fun _ _ => id, fun _ => id⟩

theorem busesPlaced_stepKept : StepKept fun s => (True ∧ Shows LowLines s) ∧ BusesPlaced s :=
  (lowLines_kept.stepKept stepKept_true secondKept_true (fun _ _ _ => trivial) fun _ _ => trivial).and
    busesPlaced_dependsOn (by decide) (fun s _ h => busesPlaced_dependsOn.kept (hearGood_changes s) (by decide) h)
    busesPlaced_touched

/-- Settles O13: the lines stay below their panels' heights, so each frame chosen stands in its place; a bus then keeps
its shape through starts, outcomes, clock edges and swaps. -/
theorem everyStepKeepsBusesAndFrames : Obligations.EveryStepKeepsBusesAndFrames := fun s t hlines hbuses hframes hstep => by
  have low : Shows LowLines s := fun p row hrow y hy => ((linesOk_iff s).mp hlines p).2.1 row hrow |>.1 y hy
  exact (busesPlaced_iff t).mpr
    (busesPlaced_stepKept.step hstep ⟨⟨trivial, low⟩, (busesPlaced_iff s).mp ⟨hbuses, hframes⟩⟩).2

end Sys2Proof.Machine

/-! The Trunk Port: queues of good cells, receivers part-way in a cell, and lines that send their queues' heads (R165 to
R167, R170 to R173). -/

namespace Sys2Proof.Machine

open Claims

/-! ### Cells -/

/-- Characters with their check behind them, and the length of their body before it, are a good cell (R165). -/
theorem goodCell_withCheck {body : List Byte} {n : Nat} (hn : body.length = n) (hmax : n ≤ 250) (k d : Nat) :
    GoodCell (withCheck (bytes1 k ++ bytes1 d ++ bytes1 n ++ body)) := by
  refine ⟨?_, sumBytes_withCheck _⟩
  have hlen : (BitVec.ofNat 8 n).toNat = n := by
    rw [BitVec.toNat_ofNat]
    exact Nat.mod_eq_of_lt (by omega)
  show (decide ((BitVec.ofNat 8 n).toNat ≤ 250) &&
    decide ((withCheck (bytes1 k ++ bytes1 d ++ bytes1 n ++ body)).length - 3 = (BitVec.ofNat 8 n).toNat + 1)) = true
  rw [hlen]
  simp [hn, hmax]
  omega

theorem reportCell_good (node : Fin 128) (kind item part parts : Nat) {contents : List Byte} (h : contents.length ≤ 246) :
    GoodCell (reportCell node kind item part parts contents) :=
  goodCell_withCheck (n := 4 + contents.length)
    (body := bytes1 kind ++ bytes1 item ++ bytes1 part ++ bytes1 parts ++ contents) (by simp; omega) (by omega) 0x60 node.val

/-! ### The length of each report (R188) -/

theorem length_deviceContents (s : State) : (deviceContents s).length = 23 := by simp [deviceContents]

theorem length_panelContents (s : State) (p : Fin 16) : (panelContents s p).length = 8 := by
  unfold panelContents
  split <;> simp

theorem length_bankReport (b : Bank) : b.report.length = 20 := by simp [Bank.report, Bank.counts]

theorem length_bankContents (s : State) : (bankContents s).length = 43 := by
  simp [bankContents, length_bankReport]

theorem length_contactReport (c : Contact) : c.report.length = 4 := by simp [Contact.report]

theorem length_sensorReport (x : Sensor) (g : Group) : (sensorReport x g).length = 7 := by simp [sensorReport]

theorem length_flatMap_of_length {α β : Type} {f : α → List β} {n : Nat} (h : ∀ a, (f a).length = n) (l : List α) :
    (l.flatMap f).length = l.length * n := by
  simp [List.length_flatMap, h]

theorem length_inputsContents (s : State) : (inputsContents s).length = 44 := by
  unfold inputsContents
  rw [List.length_append, length_flatMap_of_length length_contactReport,
    length_flatMap_of_length fun n => length_sensorReport _ _, s.contacts.size_eq, List.length_finRange]

theorem length_settingsContents (s : State) : (settingsContents s).length = 152 := by
  unfold settingsContents
  rw [length_flatMap_of_length length_bytes4]
  unfold Settings.values
  rw [List.length_append, length_flatMap_of_length (n := 6) fun c => rfl, Vec.size_eq]
  rfl

theorem length_optionBytes {enc : Nat → List Byte} {absent : List Byte} {n : Nat} (henc : ∀ v, (enc v).length = n)
    (habsent : absent.length = n) (o : Option Nat) : (optionBytes enc absent o).length = n := by
  cases o with
  | none => exact habsent
  | some v => exact henc v

theorem length_entryBytes (s : State) (b : Fin 8) (k : Nat) (e : Entry) : (entryBytes s b k e).length = 24 := by
  unfold entryBytes
  dsimp only
  simp only [List.length_append, length_optionBytes length_bytes2 (rfl : [_, _].length = 2),
    length_optionBytes length_bytes1 (rfl : [_].length = 1), length_optionBytes length_bytes3 (rfl : [_, _, _].length = 3),
    length_bytes1, length_bytes2, length_bytes3, List.length_singleton]

theorem length_boardContents (s : State) (b : Fin 8) (first : Nat) (entries : List Entry) :
    (boardContents s b first entries).length = 1 + 24 * entries.length := by
  unfold boardContents
  rw [List.length_append, length_flatMap_of_length (f := fun e : Entry × Nat => entryBytes s b e.2 e.1) fun e => length_entryBytes s b e.2 e.1,
    List.length_zipIdx, length_bytes1,
    Nat.mul_comm]

/-- The parts of a BOARD report of a board that holds at most 16 entries are good cells. -/
theorem boardCells_good {s : State} {b : Fin 8} (h : (s.boards.get b).length ≤ 16) : ∀ cell ∈ boardCells s b, GoodCell cell := by
  have part (k n first : Nat) (entries : List Entry) (hentries : entries.length ≤ 8) :
      GoodCell (reportCell s.trunk.node 1 b.val k n (boardContents s b first entries)) :=
    reportCell_good _ _ _ _ _ (by rw [length_boardContents]; omega)
  unfold boardCells
  dsimp only
  split
  next hfew =>
    intro cell hcell
    obtain rfl := List.mem_singleton.mp hcell
    exact part _ _ _ _ hfew
  next hmany =>
    have hcut : ((s.boards.get b).take partSize).length ≤ 8 := List.length_take_le _ _
    have hrest : ((s.boards.get b).drop partSize).length ≤ 8 := by
      rw [List.length_drop]
      exact Nat.sub_le_of_le_add h
    intro cell hcell
    rcases List.mem_cons.mp hcell with rfl | hcell
    · exact part _ _ _ _ hcut
    · obtain rfl := List.mem_singleton.mp hcell
      exact part _ _ _ _ hrest

/-! ### The Trunk Port's parts -/

/-- The Trunk Port but for what RETURN_OUT serves. -/
structure TrunkPort.Held (t : TrunkPort) : Prop where
  rxTrunk : t.rxTrunk.Ok
  rxReturn : t.rxReturn.Ok
  forward : QueueOk t.forward
  relay : QueueOk t.relay
  own : QueueOk t.own
  out : t.trunkOut = t.forward.head?.map t.transmit
  silence : t.silence ≤ 65535
  abandoned : t.abandoned ≤ 255
  checkFailures : t.checkFailures ≤ 255

/-- A queue served holds cells, and the marker names it (R172). -/
def TrunkPort.Serves (t : TrunkPort) : Prop := ∀ q, t.sending = some q → t.queue q ≠ [] ∧ t.lastServed = q

/-- RETURN_OUT busy exactly while a return queue holds a cell, and sending the head of the queue served (R172). -/
structure TrunkPort.Returns (t : TrunkPort) : Prop where
  idle : t.sending = none → t.relay = [] ∧ t.own = []
  serves : t.Serves
  out : t.returnOut = t.sending.bind fun q => (t.queue q).head?.map t.transmit

/-- The Trunk Port in its shape. -/
def TrunkPort.Ok (t : TrunkPort) : Prop := t.Held ∧ t.Returns

theorem trunkOk_iff (s : State) : TrunkOk s ↔ s.trunk.Ok :=
  ⟨fun ⟨hrx, hret, hf, hr, ho, hidle, hserves, hout, hrout, hs, ha, hc⟩ =>
      ⟨⟨hrx, hret, hf, hr, ho, hout, hs, ha, hc⟩, ⟨hidle, hserves, hrout⟩⟩,
    fun ⟨⟨hrx, hret, hf, hr, ho, hout, hs, ha, hc⟩, ⟨hidle, hserves, hrout⟩⟩ =>
      ⟨hrx, hret, hf, hr, ho, hidle, hserves, hout, hrout, hs, ha, hc⟩⟩

section
variable {t : TrunkPort}

/-- A good cell joins a queue with room. -/
theorem QueueOk.join {queue : List (List Byte)} (h : QueueOk queue) (hroom : queue.length < queueSize) {cell : List Byte}
    (hcell : GoodCell cell) : QueueOk (queue ++ [cell]) :=
  ⟨by rw [List.length_append]; exact hroom, fun c hc => (List.mem_append.mp hc).elim (h.2 c) fun hc =>
    List.mem_singleton.mp hc ▸ hcell⟩

theorem QueueOk.tail {queue : List (List Byte)} (h : QueueOk queue) : QueueOk queue.tail :=
  ⟨(List.tail_sublist queue).length_le.trans h.1, fun c hc => h.2 c (List.mem_of_mem_tail hc)⟩

theorem nextServed_eq_none : t.nextServed = none ↔ t.relay = [] ∧ t.own = [] := by
  unfold TrunkPort.nextServed
  cases t.relay <;> cases t.own <;> simp

theorem queue_of_nextServed {q : ReturnQueue} (h : t.nextServed = some q) : t.queue q ≠ [] := by
  unfold TrunkPort.nextServed at h
  cases hr : t.relay <;> cases ho : t.own <;> simp [hr, ho] at h
  · subst h; simp [TrunkPort.queue, ho]
  · subst h; simp [TrunkPort.queue, hr]
  · cases q <;> simp [TrunkPort.queue, hr, ho]

theorem TrunkPort.Serves.serve (h : t.Serves) : t.serve.Serves := by
  obtain ⟨q, -, hnext, heq⟩ | ⟨-, heq⟩ := t.serve_cases
  · rw [heq]
    intro r hr
    obtain rfl := Option.some.inj hr
    have hcells := queue_of_nextServed hnext
    cases q <;> exact ⟨hcells, rfl⟩
  · rw [heq]
    exact h

theorem serve_idle (h : t.serve.sending = none) : t.serve.relay = [] ∧ t.serve.own = [] := by
  obtain ⟨q, -, -, heq⟩ | ⟨hnone, heq⟩ := t.serve_cases
  · rw [heq] at h
    cases h
  · rw [heq] at h ⊢
    exact nextServed_eq_none.mp (hnone h)

/-- The arbiter puts RETURN_OUT in its shape. -/
theorem TrunkPort.Serves.arbitrate (h : t.Serves) : t.arbitrate.Returns where
  idle := serve_idle
  serves q hq := by
    have hserved := h.serve q hq
    cases q <;> exact hserved
  out := t.arbitrate_returnOut

theorem TrunkPort.Held.arbitrate (h : t.Held) : t.arbitrate.Held := by
  unfold TrunkPort.arbitrate
  obtain ⟨q, -, -, heq⟩ | ⟨-, heq⟩ := t.serve_cases <;> rw [heq]
  · exact ⟨h.rxTrunk, h.rxReturn, h.forward, h.relay, h.own, h.out, h.silence, h.abandoned, h.checkFailures⟩
  · exact ⟨h.rxTrunk, h.rxReturn, h.forward, h.relay, h.own, h.out, h.silence, h.abandoned, h.checkFailures⟩

theorem TrunkPort.Returns.of_eq {u : TrunkPort} (h : t.Returns) (hsending : u.sending = t.sending)
    (hlast : u.lastServed = t.lastServed) (hrelay : u.relay = t.relay) (hown : u.own = t.own)
    (hout : u.returnOut = t.returnOut) (hrate : u.rateCode = t.rateCode) : u.Returns := by
  have hqueue (q : ReturnQueue) : u.queue q = t.queue q := by cases q <;> assumption
  have htransmit : u.transmit = t.transmit := by funext cell; simp [TrunkPort.transmit, hrate]
  refine ⟨?_, fun q hq => ?_, ?_⟩
  · rw [hsending, hrelay, hown]; exact h.idle
  · rw [hqueue, hlast]; exact h.serves q (hsending ▸ hq)
  · rw [hout, hsending, htransmit, h.out]; simp only [hqueue]

/-- A good cell joins the forward queue (R170). -/
theorem TrunkPort.Ok.joinForward (h : t.Ok) (hroom : t.forward.length < queueSize) {cell : List Byte} (hcell : GoodCell cell) :
    (TrunkPort.sendForward { t with forward := t.forward ++ [cell] }).Ok :=
  ⟨⟨h.1.rxTrunk, h.1.rxReturn, h.1.forward.join hroom hcell, h.1.relay, h.1.own, rfl, h.1.silence, h.1.abandoned,
      h.1.checkFailures⟩, h.2.of_eq rfl rfl rfl rfl rfl rfl⟩

theorem TrunkPort.Ok.leaveForward (h : t.Ok) : (TrunkPort.sendForward { t with forward := t.forward.tail }).Ok :=
  ⟨⟨h.1.rxTrunk, h.1.rxReturn, h.1.forward.tail, h.1.relay, h.1.own, rfl, h.1.silence, h.1.abandoned, h.1.checkFailures⟩,
    h.2.of_eq rfl rfl rfl rfl rfl rfl⟩

/-- A good cell joins a return queue (R171). -/
theorem TrunkPort.Ok.joinRelay (h : t.Ok) (hroom : t.relay.length < queueSize) {cell : List Byte} (hcell : GoodCell cell) :
    (TrunkPort.arbitrate { t with relay := t.relay ++ [cell] }).Ok := by
  obtain ⟨held, returns⟩ := h
  refine ⟨TrunkPort.Held.arbitrate ⟨held.rxTrunk, held.rxReturn, held.forward, held.relay.join hroom hcell, held.own, held.out,
    held.silence, held.abandoned, held.checkFailures⟩, TrunkPort.Serves.arbitrate fun q hq => ?_⟩
  obtain ⟨hcells, hlast⟩ := returns.serves q hq
  cases q with
  | relay => exact ⟨by simp [TrunkPort.queue], hlast⟩
  | own => exact ⟨hcells, hlast⟩

theorem TrunkPort.Ok.joinOwn (h : t.Ok) (hroom : t.own.length < queueSize) {cell : List Byte} (hcell : GoodCell cell) :
    (TrunkPort.arbitrate { t with own := t.own ++ [cell] }).Ok := by
  obtain ⟨held, returns⟩ := h
  refine ⟨TrunkPort.Held.arbitrate ⟨held.rxTrunk, held.rxReturn, held.forward, held.relay, held.own.join hroom hcell, held.out,
    held.silence, held.abandoned, held.checkFailures⟩, TrunkPort.Serves.arbitrate fun q hq => ?_⟩
  obtain ⟨hcells, hlast⟩ := returns.serves q hq
  cases q with
  | relay => exact ⟨hcells, hlast⟩
  | own => exact ⟨by simp [TrunkPort.queue], hlast⟩

theorem TrunkPort.Ok.setReceiver (h : t.Ok) (lane : Lane) {rx : Receiver} (hrx : rx.Ok) : (t.setReceiver lane rx).Ok := by
  obtain ⟨held, returns⟩ := h
  cases lane with
  | trunkIn =>
    exact ⟨⟨hrx, held.rxReturn, held.forward, held.relay, held.own, held.out, held.silence, held.abandoned,
      held.checkFailures⟩, returns.of_eq rfl rfl rfl rfl rfl rfl⟩
  | returnIn =>
    exact ⟨⟨held.rxTrunk, hrx, held.forward, held.relay, held.own, held.out, held.silence, held.abandoned,
      held.checkFailures⟩, returns.of_eq rfl rfl rfl rfl rfl rfl⟩

theorem TrunkPort.Ok.counts (h : t.Ok) {abandoned failures : Nat} (ha : abandoned ≤ 255) (hf : failures ≤ 255) :
    TrunkPort.Ok { t with abandoned := abandoned, checkFailures := failures } :=
  ⟨⟨h.1.rxTrunk, h.1.rxReturn, h.1.forward, h.1.relay, h.1.own, h.1.out, h.1.silence, ha, hf⟩,
    h.2.of_eq rfl rfl rfl rfl rfl rfl⟩

theorem TrunkPort.Ok.setSilence (h : t.Ok) {n : Nat} (hn : n ≤ 65535) (silent : Bool) : (t.setSilence n silent).Ok :=
  ⟨⟨h.1.rxTrunk, h.1.rxReturn, h.1.forward, h.1.relay, h.1.own, h.1.out, hn, h.1.abandoned, h.1.checkFailures⟩,
    h.2.of_eq rfl rfl rfl rfl rfl rfl⟩

/-- The Trunk Port after a reset, a forwarded RESTART on its line. -/
theorem TrunkPort.ok_reset (node : Fin 128) (rate : Fin 4) {forward : List (List Byte)} (hforward : QueueOk forward) :
    (TrunkPort.sendForward { TrunkPort.reset node rate with forward := forward }).Ok :=
  ⟨⟨trivial, trivial, hforward, ⟨Nat.zero_le _, nofun⟩, ⟨Nat.zero_le _, nofun⟩, rfl, Nat.zero_le _, Nat.zero_le _,
    Nat.zero_le _⟩, ⟨fun _ => ⟨rfl, rfl⟩, nofun, rfl⟩⟩

/-- The cell sent on RETURN_OUT leaves its queue. -/
theorem TrunkPort.Ok.leaveReturn (h : t.Ok) :
    (match t.sending with
      | none => t
      | some .relay => TrunkPort.arbitrate { t with relay := t.relay.tail, sending := none }
      | some .own => TrunkPort.arbitrate { t with own := t.own.tail, sending := none }).Ok := by
  obtain ⟨held, returns⟩ := h
  split
  · exact ⟨held, returns⟩
  · exact ⟨TrunkPort.Held.arbitrate ⟨held.rxTrunk, held.rxReturn, held.forward, held.relay.tail, held.own, held.out,
      held.silence, held.abandoned, held.checkFailures⟩, TrunkPort.Serves.arbitrate nofun⟩
  · exact ⟨TrunkPort.Held.arbitrate ⟨held.rxTrunk, held.rxReturn, held.forward, held.relay, held.own.tail, held.out,
      held.silence, held.abandoned, held.checkFailures⟩, TrunkPort.Serves.arbitrate nofun⟩

end

/-! ### Every step -/

/-- The parts of the Trunk Port. -/
def trunkParts : List Part :=
  [.receiver .trunkIn, .receiver .returnIn, .forward, .returnLane, .silence, .trunkCounts, .straps]

theorem trunk_eq_of_agrees {s t : State} (h : ∀ part ∈ trunkParts, s.agrees t part) : t.trunk = s.trunk := by
  have hrx : t.trunk.rxTrunk = s.trunk.rxTrunk := h (.receiver .trunkIn) (by decide)
  have hret : t.trunk.rxReturn = s.trunk.rxReturn := h (.receiver .returnIn) (by decide)
  obtain ⟨hforward, hout⟩ := h .forward (by decide)
  obtain ⟨hrelay, hown, hsending, hlast, hreturn⟩ := h .returnLane (by decide)
  obtain ⟨hsilence, hsilent⟩ := h .silence (by decide)
  obtain ⟨habandoned, hfailures⟩ := h .trunkCounts (by decide)
  obtain ⟨hnode, hrate⟩ := h .straps (by decide)
  cases ht : t.trunk
  cases hs : s.trunk
  simp_all

theorem trunkOk_dependsOn : DependsOn trunkParts fun s => s.trunk.Ok := fun s t hagree h => by
  dsimp only
  rw [trunk_eq_of_agrees hagree]
  exact h

theorem joinOwn_trunkOk {s : State} {cell : List Byte} (h : s.trunk.Ok) (hcell : GoodCell cell) : (joinOwn s cell).trunk.Ok := by
  unfold joinOwn
  split
  next hroom => exact h.joinOwn hroom hcell
  · exact h

theorem answer_trunkOk {s : State} (h : s.trunk.Ok) (kind item : Nat) {contents : List Byte} (hlen : contents.length ≤ 246) :
    (answer kind item contents s).trunk.Ok :=
  joinOwn_trunkOk h (reportCell_good _ _ _ _ _ hlen)

theorem hearGood_trunk (s : State) : (hearGood s).trunk = s.trunk.setSilence 0 false := by
  unfold hearGood
  dsimp only
  split <;> rfl

theorem tickSilence_trunk (s : State) :
    ∃ silent, (tickSilence s).trunk = s.trunk.setSilence (saturate 65535 s.trunk.silence) silent := by
  unfold tickSilence
  split
  · exact ⟨true, rfl⟩
  · exact ⟨s.trunk.silent, rfl⟩

theorem TrunkPort.Ok.tickSilence {s : State} (h : s.trunk.Ok) : (tickSilence s).trunk.Ok := by
  obtain ⟨silent, heq⟩ := tickSilence_trunk s
  rw [heq]
  exact h.setSilence (saturate_le _ _) silent

theorem trunkOk_secondKept : SecondKept fun s => s.trunk.Ok where
  clock s h := trunkOk_dependsOn.kept (tickClock_changes s) (by decide) h
  ages s h := trunkOk_dependsOn.kept (growAges_changes s) (by decide) h
  slot s i h := trunkOk_dependsOn.kept (tickSlot_changes i s) (by decide) h
  dwells s h := h
  language s dwell _ h := h
  silence s h := h.tickSilence
  swap s h := trunkOk_dependsOn.kept (tickSwap_changes s) (by decide) h
  refresh s cycle h := h
  probes s h := h

/-- The commands that reach the Trunk Port keep it in its shape. -/
theorem trunkOk_touched (c : Instr) (s t : State) (htouch : touches trunkParts c = true) (hc : elementary c = true)
    (hexec : exec c s = .next t) (hboards : BoardsOk s) (h : s.trunk.Ok) : t.trunk.Ok := by
  cases c with
  | trunkCell | returnCell | characterArrival | cellAbandoned | setUnknownSetting | queryUnknownKind => cases hc
  | timebaseSecond =>
    obtain rfl := Host.Outcome.next.inj hexec
    exact trunkOk_secondKept.takeSecond h
  | silent =>
    obtain rfl := Host.Outcome.next.inj hexec
    split
    · exact h.tickSilence
    · exact h
  | queryDevice item =>
    obtain rfl := Host.Outcome.next.inj hexec
    unfold takeQueryDevice
    split
    · refine answer_trunkOk (s := clearReported (s.useFree 2)) ?_ 0 0 (by rw [length_deviceContents]; decide)
      exact h.counts (Nat.zero_le _) (Nat.zero_le _)
    · exact h
  | queryBoard item =>
    obtain rfl := Host.Outcome.next.inj hexec
    unfold takeQueryBoard
    split
    next b _ =>
      obtain ⟨hlen, -⟩ := hboards b
      exact List.foldlRecOn (boardCells s b) joinOwn (motive := fun u => u.trunk.Ok)
        (b := s.useFree (boardSize * entryFree)) h fun u hu cell hcell =>
        joinOwn_trunkOk hu (boardCells_good hlen cell hcell)
    · exact h
  | queryPanel item =>
    obtain rfl := Host.Outcome.next.inj hexec
    unfold takeQueryPanel
    split
    · exact answer_trunkOk (s := s.useFree 1) h 2 item (by rw [length_panelContents]; decide)
    · exact h
  | queryBank item =>
    obtain rfl := Host.Outcome.next.inj hexec
    unfold takeQueryBank
    split
    · exact answer_trunkOk h 3 0 (by rw [length_bankContents]; decide)
    · exact h
  | queryInputs item =>
    obtain rfl := Host.Outcome.next.inj hexec
    unfold takeQueryInputs
    split
    · exact answer_trunkOk h 4 0 (by rw [length_inputsContents]; decide)
    · exact h
  | querySettings item =>
    obtain rfl := Host.Outcome.next.inj hexec
    unfold takeQuerySettings
    split
    · exact answer_trunkOk h 5 0 (by rw [length_settingsContents]; decide)
    · exact h
  | restart broadcast =>
    obtain rfl := Host.Outcome.next.inj hexec
    refine TrunkPort.ok_reset s.pins.nodeStraps s.pins.rateStraps (forward := if broadcast then [restartCell] else []) ?_
    have hcell : GoodCell restartCell := ⟨by decide, by decide⟩
    cases broadcast with
    | false => exact ⟨Nat.zero_le _, nofun⟩
    | true => exact ⟨by decide, fun cell hin => List.mem_singleton.mp hin ▸ hcell⟩
  | externalReset =>
    obtain rfl := Host.Outcome.next.inj hexec
    exact TrunkPort.ok_reset s.pins.nodeStraps s.pins.rateStraps (forward := []) ⟨Nat.zero_le _, nofun⟩
  | trunkOutCellSent =>
    obtain rfl := Host.Outcome.next.inj hexec
    exact h.leaveForward
  | returnOutCellSent =>
    obtain rfl := Host.Outcome.next.inj hexec
    exact h.leaveReturn
  | _ => exact nomatch htouch

theorem boardsOk_stepKept : StepKept BoardsOk :=
  boardsOk_dependsOn.stepKept (by decide) (fun s => boardsOk_dependsOn.kept (hearGood_changes s) (by decide)) boardsOk_touched

theorem trunkOk_trunkKept : TrunkKept fun s => BoardsOk s ∧ s.trunk.Ok where
  refuse s kind reason h := ⟨boardsOk_stepKept.port.refuse s kind reason h.1, h.2⟩
  setReceiver s lane rx hrx h := ⟨boardsOk_stepKept.port.setReceiver s lane rx h.1, h.2.setReceiver lane hrx⟩
  abandon s lane rx hrx h := by
    refine ⟨boardsOk_stepKept.port.abandon s lane rx h.1, ?_⟩
    have hset := h.2.setReceiver lane hrx
    exact hset.counts (saturate_le _ _) hset.1.checkFailures
  checkFailure s h := ⟨boardsOk_stepKept.port.checkFailure s h.1, h.2.counts h.2.1.abandoned (saturate_le _ _)⟩
  hear s h := by
    refine ⟨boardsOk_stepKept.port.hear s h.1, ?_⟩
    rw [hearGood_trunk]
    exact h.2.setSilence (Nat.zero_le _) false
  forward s cell hcell h := by
    refine ⟨boardsOk_stepKept.port.forward s cell h.1, ?_⟩
    unfold forwardCell
    split
    next hroom => exact h.2.joinForward hroom hcell
    · exact h.2
  judgeReturn s cell hshape h := by
    refine ⟨boardsOk_stepKept.port.judgeReturn s cell h.1, ?_⟩
    unfold judgeReturn
    split
    · exact h.2.counts h.2.1.abandoned (saturate_le _ _)
    next hsum =>
      split
      next hroom => exact h.2.joinRelay hroom ⟨hshape, not_not.mp hsum⟩
      · exact h.2

theorem trunkOk_elementaryKept : ElementaryKept fun s => BoardsOk s ∧ s.trunk.Ok := fun c s t hc hexec h => by
  refine ⟨boardsOk_stepKept.elementary c s t hc hexec h.1, ?_⟩
  cases htouch : touches trunkParts c with
  | false => exact trunkOk_dependsOn.untouched hc htouch hexec h.2
  | true => exact trunkOk_touched c s t htouch hc hexec h.1 h.2

/-- Settles O14: cells join the queues good and leave them whole, and each line is set to its queue's head as the queue
changes. -/
theorem everyStepKeepsTheTrunkSound : Obligations.EveryStepKeepsTheTrunkSound := fun s t hboards htrunk hstep =>
  (trunkOk_iff t).mpr (step_keeps (P := fun s => BoardsOk s ∧ s.trunk.Ok) trunkOk_trunkKept trunkOk_elementaryKept
    (fun _ h => ⟨h.2.1.rxTrunk, h.2.1.rxReturn⟩) (fun s q h => ⟨boardsOk_stepKept.queue s q h.1, h.2⟩) hstep
    ⟨hboards, (trunkOk_iff s).mp htrunk⟩).2

end Sys2Proof.Machine

/-! What every command does to the refusal count and to the sticky flags (R10, R16, R179), the language count (R104), and
the whole safe state. -/

namespace Sys2Proof.Machine

open Claims

/-! ### Refusals are counted up to 255, and flags are raised -/

theorem StillRaised.refl (f : Flags) : StillRaised f f := ⟨fun _ => id, id, id, id, id, id, id⟩

theorem StillRaised.trans {f g h : Flags} (hfg : StillRaised f g) (hgh : StillRaised g h) : StillRaised f h := by
  obtain ⟨o, fw, re, rp, nd, pd, sc⟩ := hfg
  obtain ⟨o', fw', re', rp', nd', pd', sc'⟩ := hgh
  exact ⟨fun b => o' b ∘ o b, fw' ∘ fw, re' ∘ re, rp' ∘ rp, nd' ∘ nd, pd' ∘ pd, sc' ∘ sc⟩

/-- From one state to another refusals have been counted up to 255, and flags raised (R10, R179). -/
structure Recorded (s t : State) : Prop where
  count : s.mgmt.refusals ≤ 255 → t.mgmt.refusals ≤ 255
  flags : StillRaised s.mgmt.flags t.mgmt.flags

theorem Recorded.refl (s : State) : Recorded s s := ⟨id, StillRaised.refl _⟩

theorem Recorded.same {s t : State} (hcount : t.mgmt.refusals = s.mgmt.refusals) (hflags : t.mgmt.flags = s.mgmt.flags) :
    Recorded s t := ⟨by rw [hcount]; exact id, by rw [hflags]; exact StillRaised.refl _⟩

theorem Recorded.trans {s t u : State} (h : Recorded s t) (k : Recorded t u) : Recorded s u :=
  ⟨k.count ∘ h.count, StillRaised.trans h.flags k.flags⟩

/-- A change of other parts. -/
theorem Recorded.of_changes {ps : List Part} {s t : State} (h : OnlyChanges ps s t) (hrefusal : .refusal ∉ ps)
    (hflags : .flags ∉ ps) : Recorded s t := by
  have hkept : t.mgmt.flags = s.mgmt.flags := h .flags hflags
  obtain ⟨-, hcount⟩ := h .refusal hrefusal
  exact ⟨by rw [hcount]; exact id, by rw [hkept]; exact StillRaised.refl _⟩

theorem refuse_recorded (s : State) (kind : Nat) (reason : Reason) : Recorded s (s.refuse kind reason) :=
  ⟨fun _ => saturate_le _ _, StillRaised.refl _⟩

theorem onFlags_recorded {f : Flags → Flags} (hf : ∀ g, StillRaised g (f g)) (s : State) : Recorded s (s.onFlags f) :=
  ⟨id, hf _⟩

theorem stillRaised_overflow (b : Fin 8) (f : Flags) : StillRaised f (f.raiseOverflow b) := by
  refine ⟨fun c hc => ?_, id, id, id, id, id, id⟩
  show (f.overflow.set b true).get c = true
  rw [Vec.get_set]
  split
  · rfl
  · exact hc

theorem stillRaised_fwdDrop (f : Flags) : StillRaised f f.raiseFwdDrop := ⟨fun _ => id, fun _ => rfl, id, id, id, id, id⟩
theorem stillRaised_relayDrop (f : Flags) : StillRaised f f.raiseRelayDrop := ⟨fun _ => id, id, fun _ => rfl, id, id, id, id⟩
theorem stillRaised_replyDrop (f : Flags) : StillRaised f f.raiseReplyDrop := ⟨fun _ => id, id, id, fun _ => rfl, id, id, id⟩
theorem stillRaised_newDay (f : Flags) : StillRaised f f.raiseNewDay := ⟨fun _ => id, id, id, id, fun _ => rfl, id, id⟩
theorem stillRaised_discord (f : Flags) : StillRaised f f.raisePulseDiscord := ⟨fun _ => id, id, id, id, id, fun _ => rfl, id⟩
theorem stillRaised_clamped (f : Flags) : StillRaised f f.raiseSettingClamped :=
  ⟨fun _ => id, id, id, id, id, id, fun _ => rfl⟩

theorem takeEntry_recorded (body : EntryBody) (s : State) : Recorded s (takeEntry body s) := by
  have placed (u : State) (b : Fin 8) (l : List Entry) (n : Option Notice) : Recorded u (u.setBoard b l n) :=
    Recorded.of_changes (setBoard_changes u b l n) (by decide) (by decide)
  unfold takeEntry
  split
  · unfold postEntry
    dsimp only
    split
    · split
      · exact placed s _ _ _
      · exact Recorded.refl s
    · split
      · unfold insertFull
        dsimp only
        split
        · exact (onFlags_recorded (stillRaised_overflow _) s).trans (placed _ _ _ _)
        · exact onFlags_recorded (stillRaised_overflow _) s
      · exact placed s _ _ _
  · exact refuse_recorded s _ _

theorem takeWithdraw_recorded (board sid : Nat) (s : State) : Recorded s (takeWithdraw board sid s) := by
  unfold takeWithdraw
  split
  · split
    · exact refuse_recorded s _ _
    · dsimp only
      split
      · exact Recorded.of_changes (setBoard_changes s _ _ _) (by decide) (by decide)
      · exact Recorded.refl s
  · exact refuse_recorded s _ _

theorem takeClearBoard_recorded (board : Nat) (s : State) : Recorded s (takeClearBoard board s) := by
  unfold takeClearBoard
  split
  · exact Recorded.of_changes (setBoard_changes s _ _ _) (by decide) (by decide)
  · exact refuse_recorded s _ _

theorem clockChange_recorded (expire : Bool) (s : State) : Recorded s (clockChange expire s) :=
  Recorded.of_changes (clockChange_changes expire s) (by decide) (by decide)

theorem startNewDay_recorded (s : State) : Recorded s (startNewDay s) := by
  unfold startNewDay
  exact (Recorded.of_changes (changeBoards_changes s _) (by decide) (by decide)).trans
    (onFlags_recorded stillRaised_newDay _)

theorem takeTime_recorded (second : Nat) (s : State) : Recorded s (takeTime second s) := by
  unfold takeTime
  split
  · exact refuse_recorded s _ _
  · dsimp only
    refine Recorded.trans ?_ (clockChange_recorded true _)
    split
    · exact (startNewDay_recorded s).trans (Recorded.same rfl rfl)
    · exact Recorded.same rfl rfl

theorem takePulse_recorded (s : State) : Recorded s (takePulse s) := by
  unfold takePulse
  split
  · exact Recorded.same rfl rfl
  · split
    · exact onFlags_recorded stillRaised_discord s
    · dsimp only
      split
      · exact Recorded.same rfl rfl
      · exact Recorded.trans (t := { s with clock := pulsedClock s.clock }) (Recorded.same rfl rfl)
          (clockChange_recorded _ _)

theorem setSlot_recorded (s : State) (i : Fin 8) (slot : Slot) (newText : Bool) :
    Recorded s (s.setSlot i slot newText) :=
  Recorded.of_changes (setSlot_changes s i slot newText) (by decide) (by decide)

theorem takeMessage_recorded (b : MessageBody) (s : State) : Recorded s (takeMessage b s) := by
  unfold takeMessage
  split
  · exact setSlot_recorded s _ _ _
  · exact refuse_recorded s _ _

theorem takeMessageEnd_recorded (slot : Nat) (s : State) : Recorded s (takeMessageEnd slot s) := by
  unfold takeMessageEnd
  split
  · exact refuse_recorded s _ _
  · split
    · exact setSlot_recorded s _ _ _
    · exact Recorded.same rfl rfl
    · exact refuse_recorded s _ _

theorem takeAckAlert_recorded (contact : Nat) (s : State) : Recorded s (takeAckAlert contact s) := by
  unfold takeAckAlert
  split
  · exact refuse_recorded s _ _
  · split
    · exact Recorded.same rfl rfl
    · split
      · exact refuse_recorded s _ _
      · exact Recorded.of_changes (clearAlert_changes _ s) (by decide) (by decide)

theorem takeMode_recorded (value : Nat) (s : State) : Recorded s (takeMode value s) := by
  unfold takeMode
  split
  · exact refuse_recorded s _ _
  · split
    · exact Recorded.same rfl rfl
    · exact Recorded.same rfl rfl

theorem takeTableLoad_recorded (table index : Nat) (record : List Byte) (s : State) :
    Recorded s (takeTableLoad table index record s) := by
  unfold takeTableLoad
  split
  · exact refuse_recorded s _ _
  · split
    · exact refuse_recorded s _ _
    · split
      · exact Recorded.same rfl rfl
      · exact Recorded.trans (t := { s with tables := { s.tables with standby := .faulted } }) (Recorded.same rfl rfl)
          (refuse_recorded _ _ _)

theorem takeBankCopy_recorded (s : State) : Recorded s (takeBankCopy s) := by
  unfold takeBankCopy
  split
  · exact refuse_recorded s _ _
  · exact Recorded.same rfl rfl

theorem takeBankClear_recorded (s : State) : Recorded s (takeBankClear s) := by
  unfold takeBankClear
  split
  · exact refuse_recorded s _ _
  · exact Recorded.same rfl rfl

theorem takeBankSwap_recorded (s : State) : Recorded s (takeBankSwap s) := by
  unfold takeBankSwap
  split
  · exact refuse_recorded s _ _
  · split
    · exact refuse_recorded s _ _
    · exact Recorded.same rfl rfl

theorem setting_recorded (s : State) (f : Settings → Settings) (v w : Nat) :
    Recorded s ((s.onSettings f).noteClamp v w) := by
  unfold State.noteClamp
  split
  · exact Recorded.same rfl rfl
  · exact Recorded.trans (t := s.onSettings f) (Recorded.same rfl rfl) (onFlags_recorded stillRaised_clamped _)

theorem joinOwn_recorded (s : State) (cell : List Byte) : Recorded s (joinOwn s cell) := by
  unfold joinOwn
  split
  · exact Recorded.same rfl rfl
  · exact onFlags_recorded stillRaised_replyDrop s

/-- A refused command, or one that joins a report. -/
theorem answered_recorded {s t : State} (h : Recorded s t) (kind item : Nat) (contents : List Byte) :
    Recorded s (answer kind item contents t) := h.trans (joinOwn_recorded t _)

theorem takeQueryDevice_recorded {item : Nat} (h : item ≠ 0) (s : State) : Recorded s (takeQueryDevice item s) := by
  unfold takeQueryDevice
  rw [if_neg h]
  exact refuse_recorded s _ _

theorem takeQueryBoard_recorded (item : Nat) (s : State) : Recorded s (takeQueryBoard item s) := by
  unfold takeQueryBoard
  split
  next b _ =>
    exact List.foldlRecOn (boardCells s b) joinOwn (motive := Recorded s) (b := s.useFree (boardSize * entryFree))
      (Recorded.same rfl rfl) fun u hu cell _ => hu.trans (joinOwn_recorded u cell)
  · exact refuse_recorded s _ _

theorem takeQueryPanel_recorded (item : Nat) (s : State) : Recorded s (takeQueryPanel item s) := by
  unfold takeQueryPanel
  split
  · exact answered_recorded (s := s) (t := s.useFree 1) (Recorded.same rfl rfl) _ _ _
  · exact refuse_recorded s _ _

theorem answerOrRefuse_recorded (item kind : Nat) (contents : List Byte) (s : State) :
    Recorded s (if item = 0 then answer kind 0 contents s else s.refuse queryKind .badField) := by
  split
  · exact answered_recorded (Recorded.same rfl rfl) _ _ _
  · exact refuse_recorded s _ _

/-- The commands that clear what is recorded: a QUERY for DEVICE, and the resets. -/
def clearsRecord : Instr → Bool
  | .queryDevice item => decide (item = 0)
  | .restart _ | .externalReset => true
  | _ => false

/-- Every elementary command records refusals and raises flags, or clears the record. -/
theorem exec_recorded {c : Instr} {s t : State} (hc : elementary c = true) (hclear : clearsRecord c = false)
    (hexec : exec c s = .next t) : Recorded s t := by
  cases htouch : touches [.refusal, .flags] c with
  | false =>
    obtain ⟨u, hu, hframe⟩ := elementary_completes c s hc
    obtain rfl := Host.Outcome.next.inj (hu.symm.trans hexec)
    exact Recorded.of_changes hframe (notMem_reach_of_touches htouch _ (by simp)) (notMem_reach_of_touches htouch _ (by simp))
  | true =>
    cases c with
    | trunkCell | returnCell | characterArrival | cellAbandoned | setUnknownSetting | queryUnknownKind => cases hc
    | restart | externalReset => cases hclear
    | entry body =>
      obtain rfl := Host.Outcome.next.inj hexec
      exact takeEntry_recorded body s
    | withdraw board sid =>
      obtain rfl := Host.Outcome.next.inj hexec
      exact takeWithdraw_recorded board sid s
    | clearBoard board =>
      obtain rfl := Host.Outcome.next.inj hexec
      exact takeClearBoard_recorded board s
    | time second =>
      obtain rfl := Host.Outcome.next.inj hexec
      exact takeTime_recorded second s
    | minutePulse =>
      obtain rfl := Host.Outcome.next.inj hexec
      exact takePulse_recorded s
    | message b =>
      obtain rfl := Host.Outcome.next.inj hexec
      exact takeMessage_recorded b s
    | messageEnd slot =>
      obtain rfl := Host.Outcome.next.inj hexec
      exact takeMessageEnd_recorded slot s
    | ackAlert contact =>
      obtain rfl := Host.Outcome.next.inj hexec
      exact takeAckAlert_recorded contact s
    | mode value =>
      obtain rfl := Host.Outcome.next.inj hexec
      exact takeMode_recorded value s
    | tableLoad table index record =>
      obtain rfl := Host.Outcome.next.inj hexec
      exact takeTableLoad_recorded table index record s
    | bankCopy =>
      obtain rfl := Host.Outcome.next.inj hexec
      exact takeBankCopy_recorded s
    | bankClear =>
      obtain rfl := Host.Outcome.next.inj hexec
      exact takeBankClear_recorded s
    | bankSwap =>
      obtain rfl := Host.Outcome.next.inj hexec
      exact takeBankSwap_recorded s
    | setDepartureHold v | setCancelHold v | setLanguageDwell v | setSilenceLimit v | setRefreshCycle v | setBusRate _ v
    | setHoldLimit v | setContactFilter _ v | setContactAlertString _ v =>
      obtain rfl := Host.Outcome.next.inj hexec
      exact setting_recorded s _ v _
    | setStalePeriod v | setCountdownLimit v | setDelayThreshold v =>
      obtain rfl := Host.Outcome.next.inj hexec
      exact (setting_recorded s _ v _).trans (Recorded.of_changes (rederiveAll_changes _) (by decide) (by decide))
    | setBusEnable b v =>
      obtain rfl := Host.Outcome.next.inj hexec
      exact (setting_recorded s _ v _).trans
        (Recorded.of_changes (switchBus_changes b _ _ _) (by cases b <;> decide) (by cases b <;> decide))
    | setSensorFallbackLevel v =>
      obtain rfl := Host.Outcome.next.inj hexec
      exact (setting_recorded s _ v _).trans (Recorded.of_changes (refallAll_changes _) (by decide) (by decide))
    | setContactEnable n v =>
      obtain rfl := Host.Outcome.next.inj hexec
      exact (setting_recorded s _ v _).trans (Recorded.of_changes (switchContact_changes n _ _ _) (by decide) (by decide))
    | setContactMode n v | setContactPolarity n v =>
      obtain rfl := Host.Outcome.next.inj hexec
      exact (setting_recorded s _ v _).trans (Recorded.of_changes (judgeLevel_changes n _) (by decide) (by decide))
    | queryDevice item =>
      obtain rfl := Host.Outcome.next.inj hexec
      exact takeQueryDevice_recorded (of_decide_eq_false hclear) s
    | queryBoard item =>
      obtain rfl := Host.Outcome.next.inj hexec
      exact takeQueryBoard_recorded item s
    | queryPanel item =>
      obtain rfl := Host.Outcome.next.inj hexec
      exact takeQueryPanel_recorded item s
    | queryBank item | queryInputs item | querySettings item =>
      obtain rfl := Host.Outcome.next.inj hexec
      exact answerOrRefuse_recorded item _ _ s
    | _ => exact nomatch htouch

/-! ### Cells -/

theorem setContactSetting_recorded (n : Fin 4) (k v : Nat) (s : State) : Recorded s (setContactSetting n k v s) := by
  unfold setContactSetting
  split
  · exact exec_recorded (c := .setContactEnable n v) rfl rfl rfl
  · exact exec_recorded (c := .setContactMode n v) rfl rfl rfl
  · exact exec_recorded (c := .setContactPolarity n v) rfl rfl rfl
  · exact exec_recorded (c := .setContactFilter n v) rfl rfl rfl
  · exact exec_recorded (c := .setContactPanelMask n v) rfl rfl rfl
  · exact exec_recorded (c := .setContactAlertString n v) rfl rfl rfl

theorem takeSet_recorded (number v : Nat) (s : State) : Recorded s (takeSet number v s) := by
  unfold takeSet
  split
  · exact exec_recorded (c := .setDepartureHold v) rfl rfl rfl
  · exact exec_recorded (c := .setCancelHold v) rfl rfl rfl
  · exact exec_recorded (c := .setStalePeriod v) rfl rfl rfl
  · exact exec_recorded (c := .setCountdownLimit v) rfl rfl rfl
  · exact exec_recorded (c := .setDelayThreshold v) rfl rfl rfl
  · exact exec_recorded (c := .setLanguageDwell v) rfl rfl rfl
  · exact exec_recorded (c := .setSilenceLimit v) rfl rfl rfl
  · exact exec_recorded (c := .setRefreshCycle v) rfl rfl rfl
  · exact exec_recorded (c := .setBusRate .busA v) rfl rfl rfl
  · exact exec_recorded (c := .setBusRate .busB v) rfl rfl rfl
  · exact exec_recorded (c := .setBusEnable .busA v) rfl rfl rfl
  · exact exec_recorded (c := .setBusEnable .busB v) rfl rfl rfl
  · exact exec_recorded (c := .setHoldLimit v) rfl rfl rfl
  · exact exec_recorded (c := .setSensorFallbackLevel v) rfl rfl rfl
  · split
    · exact refuse_recorded s _ _
    · split
      · exact setContactSetting_recorded _ _ v s
      · exact refuse_recorded s _ _

theorem takeQuery_recorded {kind item : Nat} (h : ¬(kind = 0 ∧ item = 0)) (s : State) : Recorded s (takeQuery kind item s) := by
  unfold takeQuery
  split
  · exact takeQueryDevice_recorded (fun hitem => h ⟨rfl, hitem⟩) s
  · exact takeQueryBoard_recorded item s
  · exact takeQueryPanel_recorded item s
  · exact answerOrRefuse_recorded item _ _ s
  · exact answerOrRefuse_recorded item _ _ s
  · exact answerOrRefuse_recorded item _ _ s
  · exact refuse_recorded s _ _

/-- A taken cell that is neither a QUERY for DEVICE nor a RESTART (R169). -/
theorem handToOwner_recorded {kind : Nat} {body : List Byte}
    (hquery : ¬(kind = 0x50 ∧ byteAt body 0 = 0 ∧ byteAt body 1 = 0)) (hrestart : kind ≠ 0x5F) (broadcast : Bool) (s : State) :
    Recorded s (handToOwner kind broadcast body s) := by
  unfold handToOwner
  split
  · exact takeEntry_recorded _ s
  · exact takeWithdraw_recorded _ _ s
  · exact takeClearBoard_recorded _ s
  · exact takeTime_recorded _ s
  · exact takeMessage_recorded _ s
  · exact takeMessageEnd_recorded _ s
  · exact takeTableLoad_recorded _ _ _ s
  · exact takeBankCopy_recorded s
  · exact takeBankClear_recorded s
  · exact takeBankSwap_recorded s
  · exact takeSet_recorded _ _ s
  · exact takeMode_recorded _ s
  · exact takeAckAlert_recorded _ s
  · exact takeQuery_recorded (fun hboth => hquery ⟨rfl, hboth⟩) s
  · exact absurd rfl hrestart
  · exact Recorded.refl s

theorem byteAt_dropLast {l : List Byte} {i : Nat} (h : i + 1 < l.length) : byteAt l.dropLast i = byteAt l i := by
  unfold byteAt
  rw [List.getD_eq_getElem?_getD, List.getD_eq_getElem?_getD, List.getElem?_dropLast, if_pos (by omega)]

/-- The body of a whole cell has the length that the cell gives. -/
theorem length_body {cell : List Byte} (h : isWhole cell = true) : ((cell.drop 3).dropLast).length = byteAt cell 2 := by
  have hlen := (of_decide_eq_true h).2
  rw [List.length_dropLast, List.length_drop]
  omega

theorem byteAt_body {cell : List Byte} {i : Nat} (hi : i + 4 < cell.length) :
    byteAt ((cell.drop 3).dropLast) i = byteAt cell (3 + i) := by
  rw [byteAt_dropLast (by rw [List.length_drop]; omega), byteAt_drop]

theorem isWhole_of_cellShape {cell : List Byte} (h : cellShape cell = true) : isWhole cell = true := by
  match cell with
  | [] | [_] | [_, _] => cases h
  | _ :: _ :: len :: rest =>
    simp only [cellShape, Bool.and_eq_true, decide_eq_true_eq] at h
    simp [isWhole, h]

/-- The body of a QUERY for DEVICE, or of a RESTART (R180, R182). -/
def ClearsBody (cell : List Byte) : Prop :=
  (byteAt cell 0 = 0x50 ∧ byteAt cell 2 = 2 ∧ byteAt cell 3 = 0 ∧ byteAt cell 4 = 0) ∨
    (byteAt cell 0 = 0x5F ∧ byteAt cell 2 = 0)

theorem takeCell_recorded {cell : List Byte} (hwhole : isWhole cell = true) (hkept : ¬ClearsBody cell) (s : State) :
    Recorded s (takeCell cell s) := by
  have hbody := length_body hwhole
  have hlen := (of_decide_eq_true hwhole).2
  unfold takeCell
  dsimp only
  split
  · exact refuse_recorded s _ _
  · exact refuse_recorded s _ _
  next hpermitted =>
    rw [hbody] at hpermitted
    have query : ¬(byteAt cell 0 = 0x50 ∧ byteAt ((cell.drop 3).dropLast) 0 = 0 ∧ byteAt ((cell.drop 3).dropLast) 1 = 0) := by
      rintro ⟨hkind, hfirst, hsecond⟩
      have htwo : byteAt cell 2 = 2 := by simpa [hkind, lengthPermitted?] using hpermitted
      rw [byteAt_body (by omega)] at hfirst hsecond
      exact hkept (.inl ⟨hkind, htwo, hfirst, hsecond⟩)
    have restart : byteAt cell 0 ≠ 0x5F := fun hkind =>
      hkept (.inr ⟨hkind, by simpa [hkind, lengthPermitted?] using hpermitted⟩)
    exact handToOwner_recorded query restart _ s

theorem hearGood_recorded (s : State) : Recorded s (hearGood s) :=
  Recorded.of_changes (hearGood_changes s) (by decide) (by decide)

theorem forwardCell_recorded (cell : List Byte) (s : State) : Recorded s (forwardCell cell s) := by
  unfold forwardCell
  split
  · exact Recorded.same rfl rfl
  · exact onFlags_recorded stillRaised_fwdDrop s

theorem judgeReturn_recorded (cell : List Byte) (s : State) : Recorded s (judgeReturn cell s) := by
  unfold judgeReturn
  split
  · exact Recorded.same rfl rfl
  · split
    · exact Recorded.same rfl rfl
    · exact onFlags_recorded stillRaised_relayDrop s

theorem takesDestination_iff {node : Fin 128} {destination : Nat} :
    takesDestination node destination = true ↔ destination = 0 ∨ (destination = node.val ∧ node.val ≠ 0) :=
  decide_eq_true_iff

/-- A cell judged on TRUNK_IN records, or it is one that clears the record. -/
theorem judgeTrunk_recorded {cell : List Byte} (hwhole : isWhole cell = true) (s : State) :
    Recorded s (judgeTrunk cell s) ∨ ClearsFlags s cell := by
  unfold judgeTrunk
  dsimp only
  split
  · exact .inl (Recorded.same rfl rfl)
  next hsum =>
    have heard : Recorded s (if forwardsDestination s.trunk.node (byteAt cell 1) then forwardCell cell (hearGood s)
        else hearGood s) := by
      split
      · exact (hearGood_recorded s).trans (forwardCell_recorded cell _)
      · exact hearGood_recorded s
    by_cases htaken : takesDestination s.trunk.node (byteAt cell 1) = true
    · rw [if_pos htaken]
      by_cases hclear : ClearsBody cell
      · refine .inr ⟨⟨cellShape_of_isWhole hwhole ?_, not_not.mp hsum⟩, ?_, hclear⟩
        · rcases hclear with ⟨-, h, -⟩ | ⟨-, h⟩ <;> rw [h] <;> decide
        · exact (takesDestination_iff.mp htaken).imp id And.left
      · exact .inl (heard.trans (takeCell_recorded hwhole hclear _))
    · rw [if_neg htaken]
      exact .inl heard

theorem abandonCell_node (lane : Lane) (rx : Receiver) (s : State) : (abandonCell lane rx s).trunk.node = s.trunk.node := by
  cases lane <;> rfl

theorem completeCell_recorded (lane : Lane) {cell : List Byte} (hwhole : isWhole cell = true) (s : State) :
    Recorded s (completeCell lane cell s) ∨ lane = .trunkIn ∧ ClearsFlags s cell := by
  cases lane with
  | trunkIn =>
    have hunting : Recorded s (s.onTrunk fun t => t.setReceiver .trunkIn .hunt) := Recorded.same rfl rfl
    exact (judgeTrunk_recorded hwhole _).imp hunting.trans fun h => ⟨rfl, h⟩
  | returnIn =>
    have hunting : Recorded s (s.onTrunk fun t => t.setReceiver .returnIn .hunt) := Recorded.same rfl rfl
    exact .inl (hunting.trans (judgeReturn_recorded cell _))

theorem arriveCell_recorded (lane : Lane) (cell : List Byte) (s : State) :
    Recorded s (arriveCell lane cell s) ∨ lane = .trunkIn ∧ ClearsFlags s cell := by
  unfold arriveCell
  split
  next hshape =>
    have hwhole := isWhole_of_cellShape hshape
    split
    · exact completeCell_recorded lane hwhole s
    · have given : Recorded s (abandonCell lane .hunt s) := Recorded.same rfl rfl
      refine (completeCell_recorded lane hwhole _).imp given.trans fun ⟨hlane, hgood, hdest, hbody⟩ => ⟨hlane, hgood, ?_, hbody⟩
      rwa [abandonCell_node] at hdest
  · exact .inl (Recorded.refl s)

/-- What makes a receiver complete a cell (R166). -/
theorem charAction_complete {rx : Receiver} {ch : LineChar} {cell : List Byte} (h : charAction rx ch = .complete cell) :
    ∃ chars, rx = .collect chars ∧ ch.goodStop = true ∧ ch.marker = false ∧ cell = chars ++ [ch.data] ∧ isWhole cell = true := by
  unfold charAction at h
  cases rx with
  | hunt =>
    dsimp only at h
    split at h <;> cases h
  | collect chars =>
    dsimp only at h
    split at h
    · cases h
    next hstop =>
      split at h
      · cases h
      next hmarker =>
        split at h
        · cases h
        · split at h
          next hwhole =>
            cases h
            exact ⟨chars, rfl, by simpa using hstop, by simpa using hmarker, rfl, hwhole⟩
          · cases h

/-- Settles O6: every operation but the building of a DEVICE report and the resets only raises flags. -/
theorem raisedFlagsStandUntilReported : Obligations.RaisedFlagsStandUntilReported := by
  intro c s t hwf hexec
  cases hc : elementary c with
  | true =>
    cases hclear : clearsRecord c with
    | false => exact .inl (exec_recorded hc hclear hexec).flags
    | true =>
      cases c with
      | queryDevice item => exact .inr (.inl (by rw [of_decide_eq_true hclear]))
      | restart broadcast => exact .inr (.inr (.inl ⟨broadcast, rfl⟩))
      | externalReset => exact .inr (.inr (.inr (.inl rfl)))
      | _ => cases hclear
  | false =>
    cases c with
    | trunkCell cell =>
      obtain rfl := Host.Outcome.next.inj hexec
      rcases arriveCell_recorded .trunkIn cell s with h | ⟨-, h⟩
      · exact .inl h.flags
      · exact .inr (.inr (.inr (.inr (.inl ⟨cell, rfl, h⟩))))
    | returnCell cell =>
      obtain rfl := Host.Outcome.next.inj hexec
      rcases arriveCell_recorded .returnIn cell s with h | ⟨hlane, -⟩
      · exact .inl h.flags
      · cases hlane
    | characterArrival lane ch =>
      obtain rfl := Host.Outcome.next.inj hexec
      unfold arriveChar
      split
      · exact .inl (StillRaised.refl _)
      · exact .inl (StillRaised.refl _)
      · exact .inl (StillRaised.refl _)
      next cell haction =>
        obtain ⟨chars, hrx, hstop, hmarker, rfl, hwhole⟩ := charAction_complete haction
        rcases completeCell_recorded lane hwhole s with h | ⟨rfl, h⟩
        · exact .inl h.flags
        · exact .inr (.inr (.inr (.inr (.inr ⟨ch, chars, rfl, hmarker, hstop, hrx, h⟩))))
    | cellAbandoned lane ch =>
      obtain rfl := Host.Outcome.next.inj hexec
      left
      split <;> exact StillRaised.refl _
    | setUnknownSetting number v =>
      obtain rfl := Host.Outcome.next.inj hexec
      exact .inl (takeSet_recorded number v s).flags
    | queryUnknownKind kind item =>
      obtain rfl := Host.Outcome.next.inj hexec
      have hkind : 5 < kind := by simp only [Instr.wf, Bool.and_eq_true, decide_eq_true_eq] at hwf; exact hwf.2
      exact .inl (takeQuery_recorded (fun h => by omega) s).flags
    | _ => cases hc

/-! ### The refusal count and the language count -/

theorem takeQueryDevice_count (item : Nat) (s : State) : (takeQueryDevice item s).mgmt.refusals ≤ 255 := by
  unfold takeQueryDevice
  split
  · exact (joinOwn_recorded (clearReported (s.useFree 2)) _).count (Nat.zero_le _)
  · exact saturate_le _ _

theorem refusals_stepKept : StepKept fun s => s.mgmt.refusals ≤ 255 where
  port := {
    refuse := fun s kind reason => (refuse_recorded s kind reason).count
    setReceiver := fun _ _ _ h => h
    abandon := fun _ _ _ h => h
    checkFailure := fun _ h => h
    hear := fun s => (hearGood_recorded s).count
    forward := fun s cell => (forwardCell_recorded cell s).count
    judgeReturn := fun s cell => (judgeReturn_recorded cell s).count }
  elementary := fun c s t hc hexec h => by
    cases hclear : clearsRecord c with
    | false => exact (exec_recorded hc hclear hexec).count h
    | true =>
      cases c with
      | queryDevice item =>
        obtain rfl := Host.Outcome.next.inj hexec
        exact takeQueryDevice_count item s
      | restart | externalReset =>
        obtain rfl := Host.Outcome.next.inj hexec
        exact Nat.zero_le _
      | _ => cases hclear
  queue := fun _ _ h => h

/-- The language count below the longest language dwell (R104). -/
def LangCounted (s : State) : Prop := s.disp.seq.langCount < 30

theorem langCounted_dependsOn : DependsOn [.phase] LangCounted := fun s t hagree h => by
  obtain ⟨-, hcount⟩ := hagree .phase (by simp)
  exact hcount.trans_lt h

theorem flipZone_seq (d : Display) (e : Nat × Fin 16 × PanelRow × Zone) : (flipZone d e).seq = d.seq := by
  unfold flipZone
  split
  · exact markContent_seq _ _ _ _
  · rfl

theorem flipPanel_seq (sc : Scene) (d : Display) (p : Fin 16) : (flipPanel sc d p).seq = d.seq := by
  unfold flipPanel
  split
  · rfl
  · split
    · rfl
    · split
      · split <;> rfl
      · rfl
    · rfl

/-- A flip changes the phase and its count alone of the Zone Sequencer (R104). -/
theorem flipPhase_seq (sc : Scene) (d : Display) :
    (flipPhase sc d).seq = { d.seq with phase := d.seq.phase.other, langCount := 0 } := by
  rw [flipPhase_eq]
  have zones : (sc.zones.foldl flipZone (flippedPhase d)).seq = (flippedPhase d).seq :=
    List.foldlRecOn sc.zones flipZone (motive := fun e => e.seq = (flippedPhase d).seq) rfl fun e he a _ =>
      (flipZone_seq e a).trans he
  exact List.foldlRecOn (List.finRange 16) (flipPanel sc) (motive := fun e => e.seq = (flippedPhase d).seq) zones
    fun e he p _ => (flipPanel_seq sc e p).trans he

theorem langCounted_tickLanguage {s : State} (hsettings : s.settings.Ok) :
    LangCounted (s.onDisplay (tickLanguage s.settings.languageDwell)) := by
  obtain ⟨-, -, -, -, -, ⟨-, hdwell⟩, -⟩ := hsettings
  show (Machine.tickLanguage _ s.scene s.disp).seq.langCount < 30
  unfold Machine.tickLanguage
  split
  · rw [flipPhase_seq]
    exact (by decide : 0 < 30)
  next hmore =>
    have := of_decide_eq_false (Bool.not_eq_true _ ▸ hmore)
    show s.disp.seq.langCount + 1 < 30
    omega

/-- The settings in their ranges with the count below the dwell's bound. -/
def SettledCount (s : State) : Prop := s.settings.Ok ∧ LangCounted s

theorem settledCount_dependsOn : DependsOn [.settings, .phase] SettledCount := settingsOk_dependsOn.and langCounted_dependsOn

theorem settledCount_secondKept : SecondKept SettledCount where
  clock s h := settledCount_dependsOn.kept (tickClock_changes s) (by decide) h
  ages s h := settledCount_dependsOn.kept (growAges_changes s) (by decide) h
  slot s i h := settledCount_dependsOn.kept (tickSlot_changes i s) (by decide) h
  dwells s h := settledCount_dependsOn.kept (onDisplay_changes tickDwells_changes s) (by decide) h
  language s dwell heq h := ⟨h.1, heq ▸ langCounted_tickLanguage h.1⟩
  silence s h := settledCount_dependsOn.kept (tickSilence_changes s) (by decide) h
  swap s h := settledCount_dependsOn.kept (tickSwap_changes s) (by decide) h
  refresh s cycle h := settledCount_dependsOn.kept (onDisplay_changes (refreshPanels_changes cycle) s) (by decide) h
  probes s h := h

theorem langCounted_stepKept : StepKept fun s => s.settings.Ok ∧ LangCounted s := by
  refine settingsOk_stepKept.and langCounted_dependsOn (by decide)
    (fun s _ h => langCounted_dependsOn.kept (hearGood_changes s) (by decide) h) fun c s t htouch hc hexec hsettings h => ?_
  cases c with
  | trunkCell | returnCell | characterArrival | cellAbandoned | setUnknownSetting | queryUnknownKind => cases hc
  | timebaseSecond =>
    obtain rfl := Host.Outcome.next.inj hexec
    exact (settledCount_secondKept.takeSecond ⟨hsettings, h⟩).2
  | languageFlip =>
    obtain rfl := Host.Outcome.next.inj hexec
    split
    · exact langCounted_tickLanguage hsettings
    · exact h
  | restart | externalReset =>
    obtain rfl := Host.Outcome.next.inj hexec
    exact (by decide : 0 < 30)
  | _ => exact nomatch htouch

/-- Settles O15: the invariants of the blocks, each kept by every step with the help of those it rests on. -/
theorem everyStepKeepsTheStateSafe : Obligations.EveryStepKeepsTheStateSafe := by
  rintro s t ⟨hclock, hboards, hsettings, hrefusals, htables, hslots, hcontacts, hviews, hlang, hlines, hpanels, hbuses,
    hframes, hlight, htrunk⟩ hstep
  obtain ⟨clock, settings, light⟩ :=
    everyStepKeepsClockSettingsAndLightInRange s t hclock hsettings htables hlight hstep
  obtain ⟨slots, contacts⟩ := everyStepKeepsSlotsAndContactsTogether s t hslots hcontacts hstep
  obtain ⟨lines, panels⟩ := everyStepKeepsLinesAndPanels s t htables hlines hpanels hstep
  obtain ⟨buses, frames⟩ := everyStepKeepsBusesAndFrames s t hlines hbuses hframes hstep
  exact ⟨clock, everyStepKeepsBoardsInOrder s t hboards hstep, settings, refusals_stepKept.step hstep hrefusals,
    everyStepKeepsTablesSound s t htables hstep, slots, contacts, everyStepKeepsViewsChosen s t hviews hstep,
    (langCounted_stepKept.step hstep ⟨hsettings, hlang⟩).2, lines, panels, buses, frames, light,
    everyStepKeepsTheTrunkSound s t hboards htrunk hstep⟩

end Sys2Proof.Machine

/-! The display started afresh (R90, R126, R128, R143), and with it the RESTART, the external reset and the change of the
active bank (R46, R66, R182). -/

namespace Sys2Proof.Machine

open Claims

/-! ### The display started afresh -/

/-- Of a list of numbered items, each with or without a record, the record of a number is that of its item. -/
theorem find_filterMap_of_mem {α β : Type} {l : List (Nat × α)} (hnodup : (l.map Prod.fst).Nodup) (f : Nat × α → Option β)
    {e : Nat × α} (he : e ∈ l) : Table.find (l.filterMap fun x => (f x).map fun r => (x.1, r)) e.1 = f e := by
  have absent {l : List (Nat × α)} {k : Nat} (hk : k ∉ l.map Prod.fst) :
      Table.find (l.filterMap fun x => (f x).map fun r => (x.1, r)) k = none := by
    induction l with
    | nil => rfl
    | cons x rest ih =>
      rw [List.map_cons, List.mem_cons, not_or] at hk
      rw [List.filterMap_cons]
      cases f x with
      | none => exact ih hk.2
      | some r => exact (if_neg (Ne.symm hk.1)).trans (ih hk.2)
  induction l with
  | nil => cases he
  | cons x rest ih =>
    rw [List.map_cons, List.nodup_cons] at hnodup
    rw [List.filterMap_cons]
    rcases List.mem_cons.mp he with rfl | he
    · cases f e with
      | none => exact absent hnodup.1
      | some r => exact if_pos rfl
    · have hne : x.1 ≠ e.1 := fun heq => hnodup.1 (heq ▸ List.mem_map_of_mem he)
      cases f x with
      | none => exact ih hnodup.2 he
      | some r => exact (if_neg hne).trans (ih hnodup.2 he)

theorem Table.mem_of_find {α : Type} {t : Table α} {k : Nat} {a : α} (h : t.find k = some a) : (k, a) ∈ t := by
  induction t with
  | nil => cases h
  | cons e rest ih =>
    obtain ⟨j, b⟩ := e
    unfold Table.find at h
    split at h
    next heq =>
      obtain rfl := Option.some.inj h
      exact heq ▸ List.mem_cons_self
    · exact List.mem_cons_of_mem _ (ih h)

/-- A state whose display has just been restarted shows it started. -/
theorem displayStarted_restart {t : State} {d : Display} (h : t.disp = restartDisplay t.scene d) : DisplayStarted t := by
  have hviews (p : Fin 16) : t.disp.seq.views.get p = (t.scene.panel p).map (chosenView t.scene p) := by
    rw [h]
    exact Vec.get_tabulate _ p
  have hsynthetic (p : Fin 16) {row : PanelRow} (hrow : t.scene.panel p = some row) : t.disp.seq.synthetic.get p =
      if chosenView t.scene p row = .emergency then some ((syntheticPlace d.seq.phase p row).start t.scene) else none := by
    rw [h]
    unfold restartDisplay
    dsimp only
    rw [Vec.get_tabulate, hrow]
  have hphase : t.disp.seq.phase = d.seq.phase := by rw [h]; rfl
  refine ⟨fun hwf z p row zone hz => ?_, fun z rt hrt => ?_, fun p row hrow => ⟨?_, ?_, ?_, fun hview => ?_, fun hview => ?_⟩,
    fun p hnone => ⟨?_, ?_, ?_, ?_, ?_⟩⟩
  · have hfind : t.disp.seq.runtimes.find z = startRuntime t.scene d.seq.phase p row zone := by
      rw [h]
      exact find_filterMap_of_mem (zones_nodup hwf) (fun e => startRuntime t.scene d.seq.phase e.2.1 e.2.2.1 e.2.2.2) hz
    rw [hfind, hphase]
    exact startRuntime_starts _ _ _ _ _
  · rw [h] at hrt
    obtain ⟨⟨w, p, row, zone⟩, hin, heq⟩ := List.mem_filterMap.mp (Table.mem_of_find hrt)
    obtain ⟨_, -, heq⟩ := Option.map_eq_some_iff.mp heq
    obtain ⟨rfl, -⟩ := Prod.mk.inj heq
    exact ⟨p, row, zone, hin⟩
  · have hrecord : t.disp.panels.get p = PanelBusRecord.starting (t.disp.seq.views.get p) := by
      rw [hviews]
      rw [h]
      unfold restartDisplay
      dsimp only
      rw [Vec.get_tabulate, hrow]
    rw [hrecord]
    rfl
  · rw [h]
    unfold restartDisplay
    dsimp only
    rw [Vec.get_tabulate, hrow]
  · rw [h]
    exact Vec.get_fill _ p
  · rw [hviews, hrow, Option.map_some, Option.some.injEq] at hview
    rw [hsynthetic p hrow, if_pos hview, hphase]
    exact ⟨_, rfl, start_starts _ _⟩
  · rw [hviews, hrow, Option.map_some, ne_eq, Option.some.injEq] at hview
    rw [hsynthetic p hrow, if_neg hview]
  · rw [h]
    unfold restartDisplay
    dsimp only
    rw [Vec.get_tabulate, hnone]
    rfl
  · rw [h]
    unfold restartDisplay
    dsimp only
    rw [Vec.get_tabulate, hnone]
  · rw [h]
    exact Vec.get_fill _ p
  · rw [hviews, hnone]
    rfl
  · rw [h]
    unfold restartDisplay
    dsimp only
    rw [Vec.get_tabulate, hnone]

/-! ### RESTART -/

theorem trunkRate_eq_rateOf : ∀ rate : Fin 4, trunkRate rate = rateOf rate := by decide

theorem takeRestart_trunk (broadcast : Bool) (s : State) : (takeRestart broadcast s).trunk =
    ⟨.hunt, .hunt, if broadcast then [[0x5F, 0, 0, 0xA1]] else [], [], [], none, .relay,
      if broadcast then
        some ⟨[⟨0x5F, true⟩, ⟨0, false⟩, ⟨0, false⟩, ⟨0xA1, false⟩], rateOf s.pins.rateStraps⟩ else none,
      none, 0, false, 0, 0, s.pins.nodeStraps, s.pins.rateStraps⟩ := by
  rw [← trunkRate_eq_rateOf]
  cases broadcast <;> rfl

theorem resetBuses_get (low : PerBus Bool) (b : Bus) :
    (resetBuses low).get b = ⟨if low.get b then .held else .idle, none, none, 15, none, none⟩ := by
  cases b <;> rfl

theorem takeRestart_contact (broadcast : Bool) (s : State) (n : Fin 4) :
    (takeRestart broadcast s).contacts.get n = (s.contacts.get n).restarted (s.settings.contacts.get n) :=
  Vec.get_mapIdx _ _ n

/-- The view of a present panel after a RESTART: the slots are empty, the mode is RUN and SILENT clear (R120). -/
theorem takeRestart_view (broadcast : Bool) (s : State) {p : Fin 16} {row : PanelRow} (hrow : s.scene.panel p = some row) :
    (takeRestart broadcast s).disp.seq.views.get p = some .normal := by
  have hslots : (takeRestart broadcast s).scene.slots = Vec.fill 8 .free := rfl
  have hpanel : (takeRestart broadcast s).scene.panel p = some row := hrow
  have hshown : (takeRestart broadcast s).disp.seq.views.get p =
      some (chosenView (takeRestart broadcast s).scene p row) := by
    obtain ⟨hview, -⟩ := restartDisplay_shownOk (takeRestart broadcast s).scene Display.reset p
    rw [hpanel] at hview
    exact hview
  rw [hshown]
  have hcalm : emergencyFor (takeRestart broadcast s).scene p = false := by
    refine Bool.eq_false_iff.mpr fun hem => ?_
    obtain ⟨i, r, hr, -⟩ := emergencyFor_iff.mp hem
    rw [hslots, Vec.get_fill] at hr
    cases hr
  unfold chosenView
  rw [hcalm]
  rfl

/-- Settles O4: the state that a RESTART leaves is written out; the display's part of it is the fresh start. -/
theorem restartKeepsTablesAndSettings : Obligations.RestartKeepsTablesAndSettings := by
  intro broadcast s
  obtain ⟨t, ht, hframe⟩ := elementary_completes (.restart broadcast) s rfl
  obtain rfl : takeRestart broadcast s = t := Host.Outcome.next.inj ht
  refine ⟨_, rfl, rfl, rfl, rfl, rfl, rfl, rfl, rfl, rfl, fun b => Vec.get_fill _ b, fun i => Vec.get_fill _ i, fun n => ?_,
    rfl, rfl, rfl, rfl, takeRestart_trunk broadcast s, fun n => ⟨Vec.get_fill _ n, Vec.get_fill _ n⟩,
    resetBuses_get s.pins.clockLow, rfl, rfl, fun p row => takeRestart_view broadcast s,
    displayStarted_restart (d := Display.reset) rfl, hframe⟩
  rw [takeRestart_contact]
  refine ⟨rfl, rfl, rfl, rfl, ?_⟩
  unfold Contact.restarted
  split <;> exact ⟨rfl, rfl⟩

/-! ### The reset state -/

theorem contacts_reset (n : Fin 4) : State.reset.contacts.get n = Contact.reset .high := Vec.get_fill _ n

theorem alertsOk_reset : AlertsOk State.reset := by
  have given := alertsOk_externalReset State.reset
  have heq : (takeExternalReset State.reset).contacts = State.reset.contacts := by decide
  exact alertsOk_dependsOn (takeExternalReset State.reset) State.reset (fun part hp => by
    fin_cases hp
    · rfl
    · exact heq.symm
    · rfl) given

theorem safe_reset : Safe State.reset := by
  have held := (trunkOk_iff State.reset).mpr (TrunkPort.ok_reset 0 0 (forward := []) ⟨Nat.zero_le _, nofun⟩)
  obtain ⟨hslots, hcontacts⟩ := alertsOk_reset
  obtain ⟨hlines, hpanels⟩ := (coderOk_iff State.reset).mpr coderIn_kept.reset
  obtain ⟨hbuses, hframes⟩ := (busesPlaced_iff State.reset).mpr (resetBuses_placed rfl)
  have hviews : ViewsOk State.reset := fun p => ⟨Vec.get_fill _ p, by
    show ((Vec.fill 16 none : Vec (Option MessageRuntime) 16).get p).isSome = true ↔
      (Vec.fill 16 none : Vec (Option PanelView) 16).get p = some .emergency
    simp⟩
  exact ⟨StationClock.ok_reset, boardsOk_of_empty fun b => Vec.get_fill _ b, Settings.ok_default, Nat.zero_le _,
    TableStore.ok_reset, hslots, hcontacts, hviews, by decide, hlines, hpanels, hbuses, hframes,
    LightUnit.reset_ok rfl (by decide), held⟩

/-- Settles O3. -/
theorem externalResetGivesTheSafeResetState : Obligations.ExternalResetGivesTheSafeResetState := by
  refine ⟨⟨safe_reset, rfl, fun b => Vec.get_fill _ b, rfl, fun i => Vec.get_fill _ i, fun n => ?_, rfl, rfl,
    fun p => ⟨Vec.get_fill _ p, Vec.get_fill _ p, ?_⟩, fun n => Vec.get_fill _ n, rfl, rfl, by decide⟩, fun s => ?_⟩
  · rw [contacts_reset]
    exact ⟨rfl, rfl⟩
  · show ((Vec.fill 16 PanelBusRecord.absent).get p).state = .absent
    rw [Vec.get_fill]
    rfl
  · refine ⟨takeExternalReset s, rfl, fun part hp => ?_, fun n => Vec.get_mapIdx _ _ n, resetBuses_get s.pins.clockLow, rfl, rfl,
      rfl⟩
    cases part with
    | contacts | straps | pins | freeCount | pending => exact absurd (by decide) hp
    | bus b => cases b <;> exact absurd (by decide) hp
    | receiver lane => cases lane <;> rfl
    | phase | forward | silence | trunkCounts | refusal => exact ⟨rfl, rfl⟩
    | returnLane => exact ⟨rfl, rfl, rfl, rfl, rfl⟩
    | _ => rfl

/-! ### The active bank -/

/-- A second up to its swap: the clock, the ages, the durations, the dwells, the language count and the silence timer. -/
def beforeSwap (s : State) : State :=
  let timed := tickSlots (growAges (tickClock s))
  tickSilence ((timed.onDisplay tickDwells).onDisplay (tickLanguage timed.settings.languageDwell))

theorem beforeSwap_changes (s : State) :
    OnlyChanges [.clock, .boards, .dirty, .runtimes, .slots, .views, .synthetic, .panels, .phase, .silence] s
      (beforeSwap s) := by
  unfold beforeSwap
  dsimp only
  refine OnlyChanges.trans ?_ ((tickSilence_changes _).mono (by decide))
  refine OnlyChanges.trans ?_ ((onDisplay_changes (fun sc d => tickLanguage_changes _ sc d) _).mono (by decide))
  refine OnlyChanges.trans ?_ ((onDisplay_changes tickDwells_changes _).mono (by decide))
  refine OnlyChanges.trans ?_ ((tickSlots_changes _).mono (by decide))
  exact ((tickClock_changes s).mono (by decide)).trans ((growAges_changes _).mono (by decide))

/-- After the swap a second refreshes panels and counts the probes down. -/
theorem takeSecond_eq (s : State) : takeSecond s =
    ((tickSwap (beforeSwap s)).onDisplay (refreshPanels (tickSwap (beforeSwap s)).settings.refreshCycle)).onDisplay
      fun _ d => tickProbes d := rfl

theorem takeSecond_after_swap (s : State) :
    OnlyChanges [.dirty, .cursors, .panels] (tickSwap (beforeSwap s)) (takeSecond s) := by
  rw [takeSecond_eq]
  refine OnlyChanges.trans ?_ ((onDisplay_changes (fun _ d => tickProbes_changes d) _).mono (by decide))
  exact (onDisplay_changes (fun sc d => refreshPanels_changes _ sc d) _).mono (by decide)

theorem tickSwap_tables (s : State) : (tickSwap s).tables = if s.tables.swapPending then s.tables.swapped else s.tables := by
  unfold tickSwap
  split <;> rfl

theorem takeSecond_tables (s : State) :
    (takeSecond s).tables = if s.tables.swapPending then s.tables.swapped else s.tables := by
  have htables : (beforeSwap s).tables = s.tables := beforeSwap_changes s .tables (by decide)
  have hlast : (takeSecond s).tables = (tickSwap (beforeSwap s)).tables := takeSecond_after_swap s .tables (by decide)
  rw [hlast, tickSwap_tables, htables]

/-- A cell handed to its owner leaves the active bank (R46). -/
theorem handToOwner_bank (kind : Nat) (broadcast : Bool) (body : List Byte) (s : State) :
    (handToOwner kind broadcast body s).tables.activeBank = s.tables.activeBank := by
  unfold handToOwner
  split
  · exact (takeEntry_redrawn _ s).bank
  · exact (takeWithdraw_redrawn _ _ s).bank
  · exact (takeClearBoard_redrawn _ s).bank
  · exact (takeTime_redrawn _ s).bank
  · exact (takeMessage_redrawn _ s).bank
  · exact (takeMessageEnd_redrawn _ s).bank
  · exact (takeTableLoad_redrawn _ _ _ s).bank
  · exact (takeBankCopy_redrawn s).bank
  · exact (takeBankClear_redrawn s).bank
  · exact (takeBankSwap_redrawn s).bank
  · exact congrArg TableStore.activeBank (takeSet_changes _ _ s .tables (by decide))
  · exact (takeMode_redrawn _ s).bank
  · exact (takeAckAlert_redrawn _ s).bank
  · exact congrArg TableStore.activeBank (takeQuery_changes _ _ s .tables (by decide))
  · rfl
  · rfl

theorem takeCell_bank (cell : List Byte) (s : State) : (takeCell cell s).tables.activeBank = s.tables.activeBank := by
  unfold takeCell
  dsimp only
  split
  · rfl
  · rfl
  · exact handToOwner_bank _ _ _ s

theorem judgeTrunk_bank (cell : List Byte) (s : State) : (judgeTrunk cell s).tables.activeBank = s.tables.activeBank := by
  unfold judgeTrunk
  dsimp only
  split
  · rfl
  · have heard : (if forwardsDestination s.trunk.node (byteAt cell 1) then forwardCell cell (hearGood s)
        else hearGood s).tables.activeBank = s.tables.activeBank := by
      split
      · exact (congrArg TableStore.activeBank (forwardCell_changes cell _ .tables (by decide))).trans (hearGood_redrawn s).bank
      · exact (hearGood_redrawn s).bank
    split
    · exact (takeCell_bank cell _).trans heard
    · exact heard

theorem completeCell_bank (lane : Lane) (cell : List Byte) (s : State) :
    (completeCell lane cell s).tables.activeBank = s.tables.activeBank := by
  cases lane with
  | trunkIn => exact judgeTrunk_bank cell _
  | returnIn => exact congrArg TableStore.activeBank (judgeReturn_changes cell _ .tables (by decide))

/-- Settles O5: of all operations only the swap and the external reset change which contents are active. -/
theorem activeBankChangesOnlyAtASwap : Obligations.ActiveBankChangesOnlyAtASwap := by
  intro c s t hexec
  have swapped (h : t.tables = if s.tables.swapPending then s.tables.swapped else s.tables)
      (hc : c = .swapApplied ∨ c = .timebaseSecond) : t.tables.activeBank = s.tables.activeBank ∨
        s.tables.swapPending = true ∧ (c = .swapApplied ∨ c = .timebaseSecond) ∧
          t.tables.activeBank = s.tables.standbyBank := by
    rw [h]
    split
    next hpending => exact .inr ⟨hpending, hc, rfl⟩
    · exact .inl rfl
  cases c with
  | timebaseSecond =>
    obtain rfl := Host.Outcome.next.inj hexec
    exact (swapped (takeSecond_tables s) (.inr rfl)).imp id Or.inl
  | swapApplied =>
    obtain rfl := Host.Outcome.next.inj hexec
    exact (swapped (tickSwap_tables s) (.inl rfl)).imp id Or.inl
  | externalReset =>
    obtain rfl := Host.Outcome.next.inj hexec
    exact .inr (.inr ⟨rfl, rfl⟩)
  | restart broadcast =>
    obtain rfl := Host.Outcome.next.inj hexec
    exact .inl rfl
  | tableLoad table index record =>
    obtain rfl := Host.Outcome.next.inj hexec
    exact .inl (takeTableLoad_redrawn table index record s).bank
  | bankCopy =>
    obtain rfl := Host.Outcome.next.inj hexec
    exact .inl (takeBankCopy_redrawn s).bank
  | bankCopyComplete =>
    obtain rfl := Host.Outcome.next.inj hexec
    left
    split
    · exact setStandbyBank_activeBank s.tables _
    · rfl
  | bankClear =>
    obtain rfl := Host.Outcome.next.inj hexec
    exact .inl (takeBankClear_redrawn s).bank
  | bankSwap =>
    obtain rfl := Host.Outcome.next.inj hexec
    exact .inl (takeBankSwap_redrawn s).bank
  | trunkCell cell =>
    obtain rfl := Host.Outcome.next.inj hexec
    left
    unfold arriveCell
    split
    · refine (completeCell_bank _ cell _).trans ?_
      split <;> rfl
    · rfl
  | characterArrival lane ch =>
    obtain rfl := Host.Outcome.next.inj hexec
    left
    unfold arriveChar
    split
    · rfl
    · rfl
    · rfl
    · exact completeCell_bank lane _ s
  | returnCell cell =>
    obtain rfl := Host.Outcome.next.inj hexec
    exact .inl (congrArg TableStore.activeBank (arriveCell_changes .returnIn cell s .tables (by decide)))
  | cellAbandoned lane ch =>
    obtain rfl := Host.Outcome.next.inj hexec
    left
    split <;> rfl
  | setUnknownSetting number v =>
    obtain rfl := Host.Outcome.next.inj hexec
    exact .inl (congrArg TableStore.activeBank (takeSet_changes number v s .tables (by decide)))
  | queryUnknownKind kind item =>
    obtain rfl := Host.Outcome.next.inj hexec
    exact .inl (congrArg TableStore.activeBank (takeQuery_changes kind item s .tables (by decide)))
  | _ =>
    refine .inl ((DependsOn.untouched (parts := [.tables]) (P := fun u => u.tables.activeBank = s.tables.activeBank) ?_ rfl rfl
      hexec rfl))
    intro u v hagree hu
    have htables : v.tables = u.tables := hagree .tables (by simp)
    rw [htables, hu]

end Sys2Proof.Machine

/-! The clock's rows and the settings that boards read: expiry, derivation and the notices of a change of all boards (R14 to
R18, R27 to R32, R43, R44, R178). -/

namespace Sys2Proof.Machine

open Claims

/-! ### All boards changed at once -/

theorem give_scene (s : State) (n : Option Notice) : (s.give n).scene = s.scene := by
  cases n <;> rfl

/-- Every board's entries after a change of all boards. -/
theorem changeBoards_get (s : State) (f : Fin 8 → List Entry → List Entry × Option Notice) (b : Fin 8) :
    (s.changeBoards f).boards.get b = (f b (s.boards.get b)).1 := by
  rw [changeBoards_boards, Vec.get_mapIdx]

theorem changeBoards_scene (s : State) (f : Fin 8 → List Entry → List Entry × Option Notice) :
    (s.changeBoards f).scene = { s.scene with boards := s.boards.mapIdx fun b l => (f b l).1 } :=
  List.foldlRecOn (List.finRange 8) _
    (motive := fun t : State => t.scene = { s.scene with boards := s.boards.mapIdx fun b l => (f b l).1 }) rfl
    fun t ht _ _ => (give_scene t _).trans ht

/-- The boards' notices reach the display one after the other, in board order (R18). -/
theorem foldl_give_disp {t u : State} (notice : Fin 8 → Option Notice) (bs : List (Fin 8)) (hscene : u.scene = t.scene) :
    (bs.foldl (fun u b => u.give (notice b)) u).disp =
      bs.foldl (fun d b => match notice b with
        | some n => takeNotice n t.scene d
        | none => d) u.disp := by
  induction bs generalizing u with
  | nil => rfl
  | cons b rest ih =>
    rw [List.foldl_cons, List.foldl_cons, ih ((give_scene u _).trans hscene)]
    congr 1
    cases notice b with
    | none => rfl
    | some n => exact congrArg (takeNotice n · u.disp) hscene

/-- A notice reads of a scene the active bank and the boards alone (R86, R87, R93). -/
theorem takeNotice_congr (n : Notice) {sc sc' : Scene} (hbank : sc'.bank = sc.bank) (hboards : sc'.boards = sc.boards)
    (d : Display) : takeNotice n sc' d = takeNotice n sc d := by
  have hzones : sc'.zones = sc.zones := by
    unfold Scene.zones Scene.panel
    rw [hbank]
  unfold takeNotice
  rw [hzones]
  congr 1
  funext d e
  unfold noticeZone
  rw [hbank, hboards]

theorem noticesTaken_congr {notice notice' : Fin 8 → Option Notice} {s s' t t' : State} (hnotice : notice' = notice)
    (hdisp : s'.disp = s.disp) (hbank : t'.tables.activeBank = t.tables.activeBank) (hboards : t'.boards = t.boards) :
    noticesTaken notice' s' t' = noticesTaken notice s t := by
  unfold noticesTaken
  rw [hnotice, hdisp]
  congr 1
  funext d b
  cases notice b with
  | none => rfl
  | some n => exact takeNotice_congr n hbank hboards d

theorem changeBoards_disp (s : State) (f : Fin 8 → List Entry → List Entry × Option Notice) :
    (s.changeBoards f).disp = noticesTaken (fun b => (f b (s.boards.get b)).2) s (s.changeBoards f) :=
  foldl_give_disp _ _ (changeBoards_scene s f).symm

/-- The notice of a board, by the entries that leave it and those shown anew. -/
theorem noticeOf_eq_changeNotice (b : Fin 8) (before : List Entry) (leaves anew : Entry → Bool) :
    noticeOf b ((before.findIdx? leaves).map fun first => (first, before.length - 1))
        ((before.filter leaves ++ (before.filter fun e => !leaves e).filter anew).map Entry.sid) =
      changeNotice b before leaves anew := by
  unfold noticeOf changeNotice
  dsimp only
  by_cases hids : (before.filter leaves ++ (before.filter fun e => !leaves e).filter anew).map Entry.sid = []
  · have hnone : before.findIdx? leaves = none := by
      rw [List.map_eq_nil_iff, List.append_eq_nil_iff, List.filter_eq_nil_iff] at hids
      exact List.findIdx?_eq_none_iff.mpr fun e he => Bool.eq_false_iff.mpr (hids.1 e he)
    rw [if_pos ⟨by rw [hnone]; rfl, hids⟩, if_pos hids]
  · rw [if_neg fun h => hids h.2, if_neg hids]

theorem noticeOf_none_eq_changeNotice (b : Fin 8) (before : List Entry) (anew : Entry → Bool) :
    noticeOf b none ((before.filter anew).map Entry.sid) = changeNotice b before (fun _ => false) anew := by
  have hnone : before.findIdx? (fun _ => false) = none := List.findIdx?_eq_none_iff.mpr fun _ _ => rfl
  rw [← noticeOf_eq_changeNotice, hnone]
  simp

theorem emptied_notice (b : Fin 8) (before : List Entry) :
    (emptied b before).2 = changeNotice b before (fun _ => true) fun _ => false := by
  cases before with
  | nil => rfl
  | cons e rest => simp [emptied, changeNotice, List.findIdx?_cons]

theorem ranOut_eq_gone : Entry.ranOut = gone := by
  funext st now e
  unfold Entry.ranOut gone
  rw [keyOf_eq_key]
  cases e.status <;> rfl

/-- One board at a clock change, in the words of R15 and R43. -/
theorem expireBoard_eq (st : Settings) (clock : StationClock) (expire : Bool) (b : Fin 8) (entries : List Entry) :
    expireBoard st clock expire b entries =
      ((entries.filter fun e => !(expire && clock.running && gone st clock.value e)).map (derived st clock),
        changeNotice b entries (fun e => expire && clock.running && gone st clock.value e) (shownAnew st clock)) := by
  unfold expireBoard
  dsimp only
  rw [ranOut_eq_gone, noticeOf_eq_changeNotice]
  rfl

/-! ### A clock change -/

/-- A clock change leaves the boards as R14 and R15 have it, and hands the CLOCK zones on (R32). -/
theorem clockChange_boardsAfter {s u : State} (expire : Bool) (hboards : u.boards = s.boards)
    (hsettings : u.settings = s.settings) (hdisp : u.disp = s.disp) :
    BoardsAfterChange (expire && u.clock.running) s (clockChange expire u) := by
  have hclock : (clockChange expire u).clock = u.clock := clockChange_changes expire u .clock (by decide)
  unfold BoardsAfterChange
  dsimp only
  rw [hclock]
  refine ⟨fun b => ?_, ?_⟩
  · show (u.changeBoards _).boards.get b = _
    rw [changeBoards_get, expireBoard_eq, hboards, hsettings]
  · show clockZones (u.changeBoards _).scene (u.changeBoards _).disp = clockZones (u.changeBoards _).scene _
    congr 1
    rw [changeBoards_disp]
    refine noticesTaken_congr (funext fun b => ?_) hdisp rfl rfl
    rw [expireBoard_eq, hboards, hsettings]

/-! ### TIME (R29) -/

theorem startsNewDay_iff (clock : StationClock) (second : Nat) :
    startsNewDay clock second = true ↔ clock.state ≠ .unset ∧ second + 10800 < clock.value := decide_eq_true_iff

theorem takeTime_sameDay {second : Nat} {s : State} (h : second ≤ 107999) (hday : startsNewDay s.clock second = false) :
    takeTime second s = clockChange true { s with clock := ⟨second, .synced, 0⟩ } := by
  unfold takeTime
  rw [if_neg (show ¬lastSecond < second from Nat.not_lt_of_le h)]
  dsimp only
  rw [hday]
  rfl

theorem takeTime_newDay {second : Nat} {s : State} (h : second ≤ 107999) (hday : startsNewDay s.clock second = true) :
    takeTime second s = clockChange true { startNewDay s with clock := ⟨second, .synced, 0⟩ } := by
  unfold takeTime
  rw [if_neg (show ¬lastSecond < second from Nat.not_lt_of_le h)]
  dsimp only
  rw [hday]
  rfl

/-- A change of boards that are all empty leaves them so and gives no notice. -/
theorem clockChange_of_empty {u : State} (expire : Bool) (hempty : ∀ b, u.boards.get b = []) :
    (∀ b, (clockChange expire u).boards.get b = []) ∧
      (clockChange expire u).disp = clockZones (clockChange expire u).scene u.disp := by
  obtain ⟨hboards, hdisp⟩ := clockChange_boardsAfter (s := u) expire rfl rfl rfl
  refine ⟨fun b => by rw [hboards b, hempty b]; rfl, ?_⟩
  rw [hdisp]
  congr 1
  unfold noticesTaken
  simp only [hempty]
  rfl

theorem timeSetsTheClock (v : Nat) (s : State) (hv : v ≤ 107999) :
    ∃ t, exec (.time v) s = .next t ∧ t.clock = ⟨v, .synced, 0⟩ ∧
      (if s.clock.state ≠ .unset ∧ v + 10800 < s.clock.value then
        (∀ b, t.boards.get b = []) ∧ t.mgmt.flags = { s.mgmt.flags with newDay := true } ∧
          t.disp = clockZones t.scene
            (noticesTaken (fun b => changeNotice b (s.boards.get b) (fun _ => true) fun _ => false) s t)
      else BoardsAfterChange true s t ∧ t.mgmt.flags = s.mgmt.flags) ∧
      OnlyChanges [.clock, .boards, .dirty, .runtimes, .flags] s t := by
  have hframe : OnlyChanges [.clock, .boards, .dirty, .runtimes, .flags] s (takeTime v s) := by
    cases hday : startsNewDay s.clock v with
    | false =>
      rw [takeTime_sameDay hv hday]
      exact ((setClock_changes s _).mono (by decide)).trans ((clockChange_changes true _).mono (by decide))
    | true =>
      rw [takeTime_newDay hv hday]
      exact (((startNewDay_changes s).mono (by decide)).trans ((setClock_changes _ _).mono (by decide))).trans
        ((clockChange_changes true _).mono (by decide))
  refine ⟨takeTime v s, rfl, takeTime_clock hv, ?_, hframe⟩
  split
  next hday =>
    rw [takeTime_newDay hv ((startsNewDay_iff _ _).mpr hday)]
    have hempty (b : Fin 8) : (startNewDay s).boards.get b = [] := changeBoards_get s emptied b
    obtain ⟨hboards, hdisp⟩ := clockChange_of_empty (u := { startNewDay s with clock := ⟨v, .synced, 0⟩ }) true hempty
    have hflags : (startNewDay s).mgmt.flags = { s.mgmt.flags with newDay := true } :=
      congrArg Flags.raiseNewDay (changeBoards_changes s emptied .flags (by decide))
    refine ⟨hboards, Eq.trans (clockChange_changes true _ .flags (by decide)) hflags, ?_⟩
    rw [hdisp]
    congr 1
    show (s.changeBoards emptied).disp = _
    rw [changeBoards_disp]
    refine noticesTaken_congr (funext fun b => emptied_notice b _) rfl ?_ ?_
    · exact (congrArg TableStore.activeBank
        (clockChange_changes true { startNewDay s with clock := ⟨v, .synced, 0⟩ } .tables (by decide))).symm
    · exact Vec.ext_get fun b => (hempty b).trans (hboards b).symm
  next hday =>
    rw [takeTime_sameDay hv (Bool.eq_false_iff.mpr fun h => hday ((startsNewDay_iff _ _).mp h))]
    exact ⟨clockChange_boardsAfter (u := { s with clock := ⟨v, .synced, 0⟩ }) true rfl rfl rfl,
      clockChange_changes true _ .flags (by decide)⟩

/-! ### The minute pulse (R30, R31) -/

theorem running_iff (c : StationClock) : c.running = true ↔ c.state = .synced ∨ c.state = .drifting := decide_eq_true_iff

theorem pulseDiscords_iff (c : StationClock) :
    pulseDiscords c = true ↔ (c.state = .synced ∨ c.state = .drifting) ∧ 21 ≤ c.value % 60 ∧ c.value % 60 ≤ 39 := by
  unfold pulseDiscords
  rw [Bool.and_eq_true, running_iff, decide_eq_true_iff]

theorem takePulse_held {s : State} (h : s.clock.state = .held) :
    takePulse s = { s with clock := { s.clock with age := 0 } } := by
  have hpulsed : pulsedClock s.clock = { s.clock with age := 0 } := if_pos h
  have hquiet : pulseDiscords s.clock = false :=
    Bool.eq_false_iff.mpr fun hd => by simpa [h] using ((pulseDiscords_iff _).mp hd).1
  unfold takePulse
  rw [if_neg (by simp [h]), hquiet]
  dsimp only
  rw [hpulsed, if_neg (by decide), if_pos (And.intro rfl rfl)]

theorem pulsedClock_running {c : StationClock} (h : c.state = .synced ∨ c.state = .drifting) : pulsedClock c =
    if c.value % 60 ≤ 20 then ⟨c.value - c.value % 60, .synced, 0⟩
    else if 107999 < c.value - c.value % 60 + 60 then ⟨107999, .held, 0⟩
    else ⟨c.value - c.value % 60 + 60, .synced, 0⟩ :=
  if_neg (by rcases h with h | h <;> simp [h])

/-- An accepted pulse leaves the clock SYNCED, or HELD at the end of the day. -/
theorem pulsedClock_runs {c : StationClock} (h : c.state = .synced ∨ c.state = .drifting) :
    (pulsedClock c).running = decide ((pulsedClock c).state = .synced) := by
  rw [pulsedClock_running h]
  split
  · rfl
  · split <;> rfl

theorem takePulse_accepted {s : State} (hrun : s.clock.state = .synced ∨ s.clock.state = .drifting)
    (hnear : s.clock.value % 60 ≤ 20 ∨ 40 ≤ s.clock.value % 60) :
    takePulse s =
      if (pulsedClock s.clock).value = s.clock.value ∧ (pulsedClock s.clock).state = s.clock.state then
        { s with clock := pulsedClock s.clock }
      else clockChange (decide ((pulsedClock s.clock).value ≠ s.clock.value)) { s with clock := pulsedClock s.clock } := by
  have hquiet : ¬pulseDiscords s.clock = true := fun hd => by
    obtain ⟨-, hlow, hhigh⟩ := (pulseDiscords_iff _).mp hd
    omega
  unfold takePulse
  rw [if_neg (by rcases hrun with h | h <;> simp [h]), if_neg hquiet]

theorem takePulse_clock {s : State} (hrun : s.clock.state = .synced ∨ s.clock.state = .drifting)
    (hnear : s.clock.value % 60 ≤ 20 ∨ 40 ≤ s.clock.value % 60) : (takePulse s).clock = pulsedClock s.clock := by
  rw [takePulse_accepted hrun hnear]
  split
  · rfl
  · exact clockChange_changes _ _ .clock (by decide)

/-- Settles O21: a change of the clock is followed by `clockChange`, which says what the boards and the display take. -/
theorem timeAndMinutePulseSetTheClock : Obligations.TimeAndMinutePulseSetTheClock := by
  refine ⟨fun v s hv => ⟨_, rfl, ?_⟩, timeSetsTheClock, fun s h => congrArg Host.Outcome.next (if_pos h),
    fun s h => congrArg Host.Outcome.next (takePulse_held h), fun s hrun hlow hhigh => congrArg Host.Outcome.next ?_,
    fun s _ hrun hnear => ⟨takePulse s, rfl, ?_, ?_, ?_⟩⟩
  · rw [show takeTime v s = s.refuse timeKind .badField from if_pos hv]
    exact refuse_refusedOnly s _ _
  · unfold takePulse
    rw [if_neg (by rcases hrun with h | h <;> simp [h]), if_pos ((pulseDiscords_iff _).mpr ⟨hrun, hlow, hhigh⟩)]
    rfl
  · rw [takePulse_clock hrun hnear, pulsedClock_running hrun]
  · rw [takePulse_clock hrun hnear, takePulse_accepted hrun hnear]
    split
    · exact ⟨rfl, rfl⟩
    · rw [← pulsedClock_runs hrun]
      exact clockChange_boardsAfter (u := { s with clock := pulsedClock s.clock }) _ rfl rfl rfl
  · rw [takePulse_accepted hrun hnear]
    split
    · exact (setClock_changes s _).mono (by decide)
    · exact ((setClock_changes s _).mono (by decide)).trans ((clockChange_changes _ _).mono (by decide))

/-! ### The second (R27, R28) -/

theorem takeSecond_clock (s : State) : (takeSecond s).clock = secondClock s.clock := by
  have hages : (growAges (tickClock s)).clock = (tickClock s).clock := growAges_changes _ .clock (by decide)
  rw [← tickClock_clock, ← hages]
  exact takeSecond_after_ages s .clock (by decide)

theorem tickClock_changed {s : State}
    (h : ¬((secondClock s.clock).value = s.clock.value ∧ (secondClock s.clock).state = s.clock.state)) :
    tickClock s = clockChange (decide ((secondClock s.clock).value ≠ s.clock.value)) { s with clock := secondClock s.clock } :=
  if_neg h

/-- A running clock advances, and drifts from a synchronisation age of 900 on (R27). -/
theorem secondClock_advances {c : StationClock} (hstate : c.state = .synced ∨ c.state = .drifting) (hlast : c.value < 107999) :
    secondClock c =
      ⟨c.value + 1, if c.state = .drifting ∨ 900 ≤ saturate 65535 c.age then .drifting else .synced,
        saturate 65535 c.age⟩ := by
  have hrun : ¬lastSecond ≤ c.value := Nat.not_le_of_lt hlast
  unfold secondClock
  rcases hstate with h | h
  · simp only [h, if_neg hrun]
    congr 1
    exact if_congr (by simp [driftAge]) rfl rfl
  · simp [h, hrun]

/-- A running clock is held at the end of the day (R27). -/
theorem secondClock_holds {c : StationClock} (hstate : c.state = .synced ∨ c.state = .drifting) (hlast : ¬c.value < 107999) :
    secondClock c = ⟨c.value, .held, saturate 65535 c.age⟩ := by
  have hend : lastSecond ≤ c.value := Nat.le_of_not_lt hlast
  unfold secondClock
  rcases hstate with h | h <;> simp [h, hend]

theorem secondClock_stays {c : StationClock} (hstate : c.state = .unset ∨ c.state = .held) :
    secondClock c = { c with age := saturate 65535 c.age } := by
  unfold secondClock
  rcases hstate with h | h <;> simp [h]

theorem secondClock_age (c : StationClock) : (secondClock c).age = saturate 65535 c.age := by
  unfold secondClock
  dsimp only
  split
  · rfl
  · rfl
  · split <;> rfl
  · split <;> rfl

/-- Settles O22. -/
theorem secondAdvancesTheClock : Obligations.SecondAdvancesTheClock := by
  refine ⟨fun s => ⟨takeSecond s, rfl, ?_, fun hstate => ?_, fun hstate => ?_⟩, fun s hstate hage hvalue => ?_⟩
  · rw [takeSecond_clock, secondClock_age, saturate_eq_min]
  · rw [takeSecond_clock, secondClock_stays hstate]
    exact ⟨rfl, rfl⟩
  · by_cases hlast : s.clock.value < 107999
    · simp [hlast, takeSecond_clock, secondClock_advances hstate hlast]
    · simp [hlast, takeSecond_clock, secondClock_holds hstate hlast]
  · have hclock : secondClock s.clock = ⟨s.clock.value + 1, .drifting, 900⟩ := by
      rw [secondClock_advances (.inl hstate) hvalue, hage]
      simp [saturate]
    have hdue : driftDue s.clock = true := decide_eq_true ⟨hstate, by rw [hclock]⟩
    have hchanged := tickClock_changed (s := s) (by rw [hclock]; simp)
    refine ⟨tickClock s, congrArg Host.Outcome.next (if_pos hdue), by rw [tickClock_clock, hclock], ?_,
      (tickClock_changes s).mono (by decide)⟩
    have hmoved : decide (s.clock.value + 1 ≠ s.clock.value) = true := decide_eq_true (Nat.succ_ne_self _)
    rw [hchanged, hclock, hmoved]
    exact clockChange_boardsAfter (u := { s with clock := ⟨s.clock.value + 1, .drifting, 900⟩ }) true rfl rfl rfl

end Sys2Proof.Machine

/-! The settings that a SET writes and nothing else reads at once, and those that the boards read (R43, R44, R177, R178). -/

namespace Sys2Proof.Machine

open Claims

/-! ### The range rules -/

theorem clampRange_eq {lo hi : Nat} (h : lo ≤ hi) (v : Nat) : clampRange lo hi v = max lo (min v hi) := by
  unfold clampRange
  split
  · omega
  · split <;> omega

theorem clampRange_zero_eq (hi v : Nat) : clampRange 0 hi v = min v hi := by
  rw [clampRange_eq (Nat.zero_le hi), Nat.zero_max]

theorem clampOff_eq {lo hi : Nat} (h : lo ≤ hi) (v : Nat) :
    clampOff lo hi v = if v = 0 then 0 else max lo (min v hi) := by
  unfold clampOff
  rw [clampRange_eq h]

theorem clampFilter_eq (v : Nat) : clampFilter v = max 10 (min (v - v % 10) 2550) := by
  unfold clampFilter
  rw [clampRange_eq (by decide), show v / 10 * 10 = v - v % 10 by omega]

/-- The rate taken is the greatest of the three that is not above the value. -/
theorem clampRate_greatest (v : Nat) :
    (clampRate v ≤ v ∨ clampRate v = 250000) ∧ ∀ r, IsRate r → r ≤ v → r ≤ clampRate v := by
  unfold clampRate IsRate
  split
  · exact ⟨by omega, fun r hr _ => by omega⟩
  · split
    · exact ⟨by omega, fun r hr hle => by omega⟩
    · exact ⟨by omega, fun r hr hle => by omega⟩

/-! ### A setting written -/

theorem noteClamp_noted (s : State) (f : Settings → Settings) (v w : Nat) :
    ClampNoted v w s ((s.onSettings f).noteClamp v w) := by
  unfold ClampNoted State.noteClamp
  split
  next h => simp [h, State.onSettings]
  next h => simp [h, State.onSettings, State.onFlags, Flags.raiseSettingClamped]

/-- A setting written, with its clamp noted and nothing else changed (R178). -/
theorem setting_written (s : State) (f : Settings → Settings) (v w : Nat) :
    ((s.onSettings f).noteClamp v w).settings = f s.settings ∧ ClampNoted v w s ((s.onSettings f).noteClamp v w) ∧
      OnlyChanges [.settings, .flags] s ((s.onSettings f).noteClamp v w) :=
  ⟨noteClamp_settings _ v w, noteClamp_noted s f v w, setting_changes s f v w⟩

theorem rederiveAll_rederived {s u : State} (hboards : u.boards = s.boards) (hclock : u.clock = s.clock)
    (hdisp : u.disp = s.disp) : Rederived s (rederiveAll u) := by
  have hsettings : (rederiveAll u).settings = u.settings := rederiveAll_changes u .settings (by decide)
  unfold Rederived
  rw [hsettings]
  refine ⟨fun b => ?_, ?_⟩
  · show (u.changeBoards _).boards.get b = _
    rw [changeBoards_get, hboards, hclock]
    rfl
  · show (u.changeBoards _).disp = _
    rw [changeBoards_disp]
    refine noticesTaken_congr (funext fun b => ?_) hdisp rfl rfl
    rw [← noticeOf_none_eq_changeNotice, ← hboards, ← hclock]
    rfl

/-- A setting written that every board reads (R44). -/
theorem setting_rederived (s : State) (f : Settings → Settings) (v w : Nat) :
    (rederiveAll ((s.onSettings f).noteClamp v w)).settings = f s.settings ∧
      ClampNoted v w s (rederiveAll ((s.onSettings f).noteClamp v w)) ∧
        Rederived s (rederiveAll ((s.onSettings f).noteClamp v w)) ∧
          OnlyChanges [.settings, .flags, .boards, .dirty, .runtimes] s (rederiveAll ((s.onSettings f).noteClamp v w)) := by
  obtain ⟨hsettings, hclamp, hframe⟩ := setting_written s f v w
  refine ⟨(rederiveAll_changes _ .settings (by decide)).trans hsettings,
    Eq.trans (rederiveAll_changes _ .flags (by decide)) hclamp, ?_, rederivedSetting_changes s f v w⟩
  exact rederiveAll_rederived (hframe .boards (by decide)) (hframe .clock (by decide))
    (by unfold State.noteClamp; split <;> rfl)

/-- Settles O42: each SET is `setting_written`, or `setting_rederived` where the boards read the setting. -/
theorem setBringsItsValueIntoRange : Obligations.SetBringsItsValueIntoRange := by
  refine ⟨fun v s => ⟨?_, ?_, ?_, ?_, ?_, fun b => ?_, ?_, fun n => ⟨?_, ?_, ?_⟩⟩, fun v s => ⟨?_, ?_, ?_⟩,
    fun number v s hwf => ?_⟩
  · rw [← clampRange_zero_eq]
    exact ⟨_, rfl, setting_written s (fun st => { st with departureHold := clampRange 0 600 v }) v _⟩
  · rw [← clampRange_zero_eq]
    exact ⟨_, rfl, setting_written s (fun st => { st with cancelHold := clampRange 0 1800 v }) v _⟩
  · rw [← clampRange_eq (by decide)]
    exact ⟨_, rfl, setting_written s (fun st => { st with languageDwell := clampRange 2 30 v }) v _⟩
  · exact ⟨_, _, rfl, clampOff_eq (by decide) v,
      setting_written s (fun st => { st with silenceLimit := clampOff 10 600 v }) v _⟩
  · exact ⟨_, _, rfl, clampOff_eq (by decide) v,
      setting_written s (fun st => { st with refreshCycle := clampOff 5 255 v }) v _⟩
  · obtain ⟨hle, hgreatest⟩ := clampRate_greatest v
    exact ⟨_, _, rfl, clampRate_isRate v, hle, hgreatest,
      setting_written s (fun st => { st with busRate := st.busRate.set b (clampRate v) }) v _⟩
  · rw [← clampRange_eq (by decide)]
    exact ⟨_, rfl, setting_written s (fun st => { st with holdLimit := clampRange 5 255 v }) v _⟩
  · exact ⟨_, _, rfl, clampFilter_eq v,
      setting_written s (fun st => { st with contacts := st.contacts.update n fun c => { c with filter := clampFilter v } }) v _⟩
  · exact ⟨_, rfl, rfl, onSettings_changes s _⟩
  · rw [← clampRange_zero_eq]
    exact ⟨_, rfl, setting_written s
      (fun st => { st with contacts := st.contacts.update n fun c => { c with alertString := clampRange 0 1023 v } }) v _⟩
  · exact ⟨_, _, rfl, clampOff_eq (by decide) v,
      setting_rederived s (fun st => { st with stalePeriod := clampOff 30 3600 v }) v _⟩
  · rw [← clampRange_eq (by decide)]
    exact ⟨_, rfl, setting_rederived s (fun st => { st with countdownLimit := clampRange 1 99 v }) v _⟩
  · rw [← clampRange_zero_eq]
    exact ⟨_, rfl, setting_rederived s (fun st => { st with delayThreshold := clampRange 0 3600 v }) v _⟩
  · have hnumber : namesSetting number = false := by
      simp only [Instr.wf, Bool.and_eq_true, Bool.not_eq_true'] at hwf
      exact hwf.2
    refine ⟨_, rfl, ?_⟩
    rw [takeSet_unnamed hnumber]
    exact refuse_refusedOnly s _ _

end Sys2Proof.Machine

/-! What change notices and clock changes do zone by zone, and the phase's flip (R86 to R88, R93, R103, R104, R122). -/

namespace Sys2Proof.Machine

open Claims

/-! ### Notices, zone by zone -/

/-- The rows of a zone that a notice reaches, and their lines (R86, R87, R93). -/
def noticeLines (sc : Scene) (n : Notice) (row : PanelRow) (zone : Zone) (rt : Option ZoneRuntime) : List Nat :=
  match zone.kind with
  | .rows board _ first rows gap pages _ =>
    let lines := zone.rowLines row (sc.bank.font zone.font).height gap
    if board ≠ n.board then []
    else if pages = 1 then
      ((List.range rows).filter fun i => n.reaches (sc.boards.get board) (first + i)).flatMap lines
    else
      match rt with
      | some (.page _ snapshot _) =>
        ((List.range rows).filter fun i => n.names (snapshot.getD i none)).flatMap lines
      | _ => []
  | _ => []

/-- The runtime of a zone after a notice: a page's records of ids that leave become VACANT (R93). -/
def noticeRuntime (sc : Scene) (n : Notice) (zone : Zone) (rt : Option ZoneRuntime) : Option ZoneRuntime :=
  match zone.kind with
  | .rows board _ _ _ _ pages _ =>
    if board ≠ n.board ∨ pages = 1 then rt
    else
      match rt with
      | some (.page index snapshot dwell) => some (.page index (snapshot.map (n.vacate (sc.boards.get board))) dwell)
      | _ => rt
  | _ => rt

/-- Marks taken for a zone's content on a panel in NORMAL (R85). -/
def ContentMarked (views : Vec (Option PanelView) 16) (p : Fin 16) (row : PanelRow) (ys : List Nat) (q : Fin 16) (y : Nat) :
    Prop := views.get p = some .normal ∧ q = p ∧ y ∈ ys ∧ y < row.height

theorem not_contentMarked_nil (views : Vec (Option PanelView) 16) (p : Fin 16) (row : PanelRow) (q : Fin 16) (y : Nat) :
    ¬ContentMarked views p row [] q y := fun h => nomatch h.2.2.1

theorem noticeZone_seq (sc : Scene) (n : Notice) (d : Display) (e : Nat × Fin 16 × PanelRow × Zone) :
    (noticeZone sc n d e).seq.views = d.seq.views ∧ (noticeZone sc n d e).seq.phase = d.seq.phase :=
  ⟨(noticeZone_changes sc n d e).views_eq (by decide), (noticeZone_changes sc n d e).phase_eq (by decide)⟩

theorem noticeZone_find (sc : Scene) (n : Notice) (d : Display) (e : Nat × Fin 16 × PanelRow × Zone) (k : Nat) :
    (noticeZone sc n d e).seq.runtimes.find k =
      if e.1 = k then noticeRuntime sc n e.2.2.2 (d.seq.runtimes.find k) else d.seq.runtimes.find k := by
  obtain ⟨z, p, row, zone⟩ := e
  have same (rt : Option ZoneRuntime) : rt = if z = k then rt else rt := (ite_self rt).symm
  unfold noticeZone noticeRuntime
  dsimp only
  cases zone.kind with
  | rows board format first rows gap pages dwell =>
    dsimp only
    by_cases hboard : board ≠ n.board
    · simp only [if_pos hboard, if_pos (Or.inl hboard : board ≠ n.board ∨ pages = 1)]
      exact same _
    · by_cases hpages : pages = 1
      · simp only [if_neg hboard, if_pos hpages, if_pos (Or.inr hpages : board ≠ n.board ∨ pages = 1), markContent_seq]
        exact same _
      · simp only [if_neg hboard, if_neg hpages, if_neg (not_or.mpr ⟨hboard, hpages⟩)]
        split
        next hrt =>
          rw [setRuntime_find, markContent_seq]
          split
          next heq => rw [← heq, hrt]
          · rfl
        next hrt =>
          split
          next heq =>
            subst heq
            split
            next hpage => exact absurd hpage (hrt _ _ _)
            · rfl
          · rfl
  | message | clock | tile | text => exact same _

theorem noticeZone_marks (sc : Scene) (n : Notice) (d : Display) (e : Nat × Fin 16 × PanelRow × Zone) (q : Fin 16) (y : Nat) :
    y ∈ (noticeZone sc n d e).lines.dirty.get q ↔ y ∈ d.lines.dirty.get q ∨
      ContentMarked d.seq.views e.2.1 e.2.2.1 (noticeLines sc n e.2.2.1 e.2.2.2 (d.seq.runtimes.find e.1)) q y := by
  obtain ⟨z, p, row, zone⟩ := e
  have nothing : y ∈ d.lines.dirty.get q ↔ y ∈ d.lines.dirty.get q ∨ ContentMarked d.seq.views p row [] q y := by
    rw [iff_false_intro (not_contentMarked_nil _ _ _ _ _), or_false]
  unfold noticeZone noticeLines
  dsimp only
  cases zone.kind with
  | rows board format first rows gap pages dwell =>
    dsimp only
    by_cases hboard : board ≠ n.board
    · simp only [if_pos hboard]
      exact nothing
    · by_cases hpages : pages = 1
      · simp only [if_neg hboard, if_pos hpages]
        exact mem_markContent
      · simp only [if_neg hboard, if_neg hpages]
        cases d.seq.runtimes.find z with
        | none => exact nothing
        | some rt =>
          cases rt with
          | page => exact mem_markContent
          | message | clock | tile => exact nothing
  | message | clock | tile | text => exact nothing

theorem noticeZone_local (sc : Scene) (n : Notice) :
    ActsLocally (Prod.fst) (fun d z => d.seq.runtimes.find z) (noticeZone sc n)
      (fun _ e rt => noticeRuntime sc n e.2.2.2 rt)
      (fun views _ e rt q y => ContentMarked views e.2.1 e.2.2.1 (noticeLines sc n e.2.2.1 e.2.2.2 rt) q y)
      (fun _ => True) where
  views d e := (noticeZone_seq sc n d e).1
  phase d e := (noticeZone_seq sc n d e).2
  reads d e k _ := noticeZone_find sc n d e k
  marks d e q y _ := noticeZone_marks sc n d e q y

theorem reaches_iff (n : Notice) (entries : List Entry) (position : Nat) :
    n.reaches entries position = true ↔ (∃ f l, n.range = some (f, l) ∧ f ≤ position) ∨
      ∃ e, entries[position]? = some e ∧ e.sid ∈ n.ids := by
  unfold Notice.reaches
  rw [Bool.or_eq_true]
  refine or_congr ?_ ?_
  · rcases n.range with _ | ⟨f, l⟩
    · simp
    · simp
  · cases entries[position]? <;> simp

theorem names_getD_iff (n : Notice) (snapshot : List (Option Nat)) (i : Nat) :
    n.names (snapshot.getD i none) = true ↔ ∃ sid, snapshot[i]? = some (some sid) ∧ sid ∈ n.ids := by
  rw [List.getD_eq_getElem?_getD]
  unfold Notice.names
  cases snapshot[i]? with
  | none => simp
  | some record => cases record <;> simp

theorem mem_noticeLines {sc : Scene} {n : Notice} {row : PanelRow} {zone : Zone} {rt : Option ZoneRuntime} {y : Nat} :
    y ∈ noticeLines sc n row zone rt ↔ ∃ format first rows gap pages dwell i,
      zone.kind = .rows n.board format first rows gap pages dwell ∧ i < rows ∧
        y ∈ zone.rowLines row (sc.bank.font zone.font).height gap i ∧
        ((pages = 1 ∧ ((∃ f l, n.range = some (f, l) ∧ f ≤ first + i) ∨
            ∃ e, (sc.boards.get n.board)[first + i]? = some e ∧ e.sid ∈ n.ids)) ∨
          (pages ≠ 1 ∧ ∃ index snapshot left sid, rt = some (.page index snapshot left) ∧
            snapshot[i]? = some (some sid) ∧ sid ∈ n.ids)) := by
  unfold noticeLines
  cases hkind : zone.kind with
  | rows board format first rows gap pages dwell =>
    dsimp only
    by_cases hboard : board ≠ n.board
    · rw [if_pos hboard]
      refine iff_of_false List.not_mem_nil ?_
      rintro ⟨_, _, _, _, _, _, _, heq, -⟩
      cases heq
      exact hboard rfl
    · obtain rfl := not_not.mp hboard
      rw [if_neg hboard]
      by_cases hpages : pages = 1
      · rw [if_pos hpages]
        simp only [List.mem_flatMap, List.mem_filter, List.mem_range, reaches_iff]
        constructor
        · rintro ⟨i, ⟨hi, hreach⟩, hy⟩
          exact ⟨_, _, _, _, _, _, i, rfl, hi, hy, .inl ⟨hpages, hreach⟩⟩
        · rintro ⟨_, _, _, _, _, _, i, heq, hi, hy, hcase⟩
          cases heq
          rcases hcase with ⟨-, hreach⟩ | ⟨hne, -⟩
          · exact ⟨i, ⟨hi, hreach⟩, hy⟩
          · exact absurd hpages hne
      · rw [if_neg hpages]
        split
        next index snapshot left =>
          simp only [List.mem_flatMap, List.mem_filter, List.mem_range, names_getD_iff]
          constructor
          · rintro ⟨i, ⟨hi, sid, hsid, hin⟩, hy⟩
            exact ⟨_, _, _, _, _, _, i, rfl, hi, hy, .inr ⟨hpages, _, _, _, sid, rfl, hsid, hin⟩⟩
          · rintro ⟨_, _, _, _, _, _, i, heq, hi, hy, hcase⟩
            cases heq
            rcases hcase with ⟨hone, -⟩ | ⟨-, _, _, _, sid, hrt, hsid, hin⟩
            · exact absurd hone hpages
            · cases hrt
              exact ⟨i, ⟨hi, sid, hsid, hin⟩, hy⟩
        next hrt =>
          refine iff_of_false List.not_mem_nil ?_
          rintro ⟨_, _, _, _, _, _, i, heq, -, -, hcase⟩
          cases heq
          rcases hcase with ⟨hone, -⟩ | ⟨-, _, _, _, _, hpage, -⟩
          · exact hpages hone
          · exact hrt _ _ _ hpage
  | message | clock | tile | text =>
    refine iff_of_false List.not_mem_nil ?_
    rintro ⟨_, _, _, _, _, _, _, heq, -⟩
    cases heq

theorem lt_height_of_mem_noticeLines {sc : Scene} {n : Notice} {row : PanelRow} {zone : Zone} {rt : Option ZoneRuntime}
    {y : Nat} (h : y ∈ noticeLines sc n row zone rt) : y < row.height := by
  obtain ⟨_, _, _, _, _, _, _, -, -, hy, -⟩ := mem_noticeLines.mp h
  exact lt_height_of_mem_clippedLines hy

/-- The lines a notice marks on a panel in NORMAL. -/
theorem mem_takeNotice {sc : Scene} (hwf : sc.bank.zones.wf) (n : Notice) {d : Display} {p : Fin 16}
    (hview : d.seq.views.get p = some .normal) (y : Nat) :
    y ∈ (takeNotice n sc d).lines.dirty.get p ↔ y ∈ d.lines.dirty.get p ∨
      ∃ z row zone, (z, p, row, zone) ∈ sc.zones ∧ y ∈ noticeLines sc n row zone (d.seq.runtimes.find z) := by
  unfold takeNotice
  rw [(noticeZone_local sc n).foldl_marks (fun _ _ => trivial) (zones_nodup hwf)]
  refine or_congr_right ⟨?_, ?_⟩
  · rintro ⟨⟨z, q, row, zone⟩, hin, -, heq, hy, -⟩
    exact ⟨z, row, zone, heq ▸ hin, hy⟩
  · rintro ⟨z, row, zone, hin, hy⟩
    exact ⟨(z, p, row, zone), hin, hview, rfl, hy, lt_height_of_mem_noticeLines hy⟩

/-- Settles O25: a notice marks zone by zone, and no zone reads what it does to another. -/
theorem noticeDirtiesExactlyTheRowsItReaches : Obligations.NoticeDirtiesExactlyTheRowsItReaches := by
  intro n sc d p y hwf hview
  rw [mem_takeNotice hwf n hview]
  refine or_congr_right ⟨?_, ?_⟩
  · rintro ⟨z, row, zone, hin, hy⟩
    obtain ⟨format, first, rows, gap, pages, dwell, i, h⟩ := mem_noticeLines.mp hy
    exact ⟨z, row, zone, format, first, rows, gap, pages, dwell, i, hin, h⟩
  · rintro ⟨z, row, zone, format, first, rows, gap, pages, dwell, i, hin, h⟩
    exact ⟨z, row, zone, hin, mem_noticeLines.mpr ⟨format, first, rows, gap, pages, dwell, i, h⟩⟩

/-! ### CLOCK zones -/

/-- The runtime of a zone once it has looked at the clock (R103). -/
def clockRuntime (sc : Scene) (zone : Zone) (rt : Option ZoneRuntime) : Option ZoneRuntime :=
  match zone.kind, rt with
  | .clock seconds _, some (.clock _) => some (.clock (clockText sc.clock seconds))
  | _, _ => rt

/-- The lines of a zone that a change of the clock's text marks (R88, R103). -/
def clockLines (sc : Scene) (row : PanelRow) (zone : Zone) (rt : Option ZoneRuntime) : List Nat :=
  match zone.kind, rt with
  | .clock seconds _, some (.clock drawn) =>
    if clockText sc.clock seconds = drawn then [] else zone.textLines row (sc.bank.font zone.font).height
  | _, _ => []

theorem clockZone_find (sc : Scene) (d : Display) (e : Nat × Fin 16 × PanelRow × Zone) (k : Nat) :
    (clockZone sc d e).seq.runtimes.find k =
      if e.1 = k then clockRuntime sc e.2.2.2 (d.seq.runtimes.find k) else d.seq.runtimes.find k := by
  obtain ⟨z, p, row, zone⟩ := e
  unfold clockZone
  dsimp only
  split
  next seconds align drawn hkind hrt =>
    have hruntime : clockRuntime sc zone (d.seq.runtimes.find z) = some (.clock (clockText sc.clock seconds)) := by
      unfold clockRuntime
      rw [hkind, hrt]
    split
    next htext =>
      split
      next heq =>
        subst heq
        rw [hruntime, htext, hrt]
      · rfl
    · rw [setRuntime_find, markContent_seq]
      split
      next heq => rw [← heq, hruntime]
      · rfl
  next hnone =>
    split
    next heq =>
      subst heq
      unfold clockRuntime
      split
      next hkind hrt => exact absurd hrt (hnone _ _ _ hkind)
      · rfl
    · rfl

theorem clockZone_marks (sc : Scene) (d : Display) (e : Nat × Fin 16 × PanelRow × Zone) (q : Fin 16) (y : Nat) :
    y ∈ (clockZone sc d e).lines.dirty.get q ↔ y ∈ d.lines.dirty.get q ∨
      ContentMarked d.seq.views e.2.1 e.2.2.1 (clockLines sc e.2.2.1 e.2.2.2 (d.seq.runtimes.find e.1)) q y := by
  obtain ⟨z, p, row, zone⟩ := e
  have nothing : y ∈ d.lines.dirty.get q ↔ y ∈ d.lines.dirty.get q ∨ ContentMarked d.seq.views p row [] q y := by
    rw [iff_false_intro (not_contentMarked_nil _ _ _ _ _), or_false]
  unfold clockZone clockLines
  dsimp only
  cases zone.kind with
  | clock =>
    cases d.seq.runtimes.find z with
    | none => exact nothing
    | some rt =>
      cases rt with
      | clock =>
        dsimp only
        split
        · exact nothing
        · exact mem_markContent
      | page | message | tile => exact nothing
  | rows | message | tile | text => exact nothing

theorem clockZone_local (sc : Scene) :
    ActsLocally (Prod.fst) (fun d z => d.seq.runtimes.find z) (clockZone sc) (fun _ e rt => clockRuntime sc e.2.2.2 rt)
      (fun views _ e rt q y => ContentMarked views e.2.1 e.2.2.1 (clockLines sc e.2.2.1 e.2.2.2 rt) q y)
      (fun _ => True) where
  views d e := (clockZone_changes sc d e).views_eq (by decide)
  phase d e := (clockZone_changes sc d e).phase_eq (by decide)
  reads d e k _ := clockZone_find sc d e k
  marks d e q y _ := clockZone_marks sc d e q y

theorem mem_clockLines {sc : Scene} {row : PanelRow} {zone : Zone} {rt : Option ZoneRuntime} {y : Nat} :
    y ∈ clockLines sc row zone rt ↔ ∃ seconds align drawn, zone.kind = .clock seconds align ∧ rt = some (.clock drawn) ∧
      drawn ≠ clockTextOf sc.clock seconds ∧ y ∈ zone.textLines row (sc.bank.font zone.font).height := by
  unfold clockLines
  split
  next seconds align drawn hkind =>
    rw [clockText_eq]
    split
    next htext =>
      refine iff_of_false List.not_mem_nil ?_
      rintro ⟨_, _, _, heq, hrt, hne, -⟩
      rw [hkind] at heq
      cases heq
      cases hrt
      exact hne htext.symm
    next htext =>
      constructor
      · exact fun hy => ⟨_, _, _, hkind, rfl, Ne.symm htext, hy⟩
      · rintro ⟨_, _, _, -, -, -, hy⟩
        exact hy
  next hnone =>
    refine iff_of_false List.not_mem_nil ?_
    rintro ⟨_, _, _, hkind, hrt, -⟩
    exact hnone _ _ _ hkind hrt

/-- Every CLOCK zone shows the clock's text once the zones have looked at the clock (R103). -/
theorem clockZones_find {sc : Scene} (hwf : sc.bank.zones.wf) (d : Display) {z : Nat} {p : Fin 16} {row : PanelRow} {zone : Zone}
    (hz : (z, p, row, zone) ∈ sc.zones) {seconds : Bool} {align : Align} (hkind : zone.kind = .clock seconds align)
    {drawn : ClockText} (hrt : d.seq.runtimes.find z = some (.clock drawn)) :
    (clockZones sc d).seq.runtimes.find z = some (.clock (clockTextOf sc.clock seconds)) := by
  have hfind := (clockZone_local sc).foldl_reads (fun _ _ => trivial) (zones_nodup hwf) hz d
  unfold clockZones
  rw [hfind]
  unfold clockRuntime
  rw [hkind, hrt]
  dsimp only
  rw [clockText_eq]

/-- A change of the clock's text marks exactly the CLOCK zones that show it (R88, R103). -/
theorem mem_clockZones {sc : Scene} (hwf : sc.bank.zones.wf) (d : Display) (p : Fin 16) (y : Nat) :
    y ∈ (clockZones sc d).lines.dirty.get p ↔ y ∈ d.lines.dirty.get p ∨
      (d.seq.views.get p = some .normal ∧ ∃ z row zone seconds align drawn, (z, p, row, zone) ∈ sc.zones ∧
        zone.kind = .clock seconds align ∧ d.seq.runtimes.find z = some (.clock drawn) ∧
        drawn ≠ clockTextOf sc.clock seconds ∧ y ∈ zone.textLines row (sc.bank.font zone.font).height) := by
  unfold clockZones
  rw [(clockZone_local sc).foldl_marks (fun _ _ => trivial) (zones_nodup hwf)]
  refine or_congr_right ⟨?_, ?_⟩
  · rintro ⟨⟨z, q, row, zone⟩, hin, hview, heq, hy, -⟩
    dsimp only at heq
    subst heq
    obtain ⟨seconds, align, drawn, hkind, hrt, hne, hy⟩ := mem_clockLines.mp hy
    exact ⟨hview, z, row, zone, seconds, align, drawn, hin, hkind, hrt, hne, hy⟩
  · rintro ⟨hview, z, row, zone, seconds, align, drawn, hin, hkind, hrt, hne, hy⟩
    exact ⟨(z, p, row, zone), hin, hview, rfl, mem_clockLines.mpr ⟨seconds, align, drawn, hkind, hrt, hne, hy⟩,
      lt_height_of_mem_clippedLines hy⟩

end Sys2Proof.Machine

/-! The language flip, and what a clock change has left once the second that brings it is over (R88, R103, R104, R122). -/

namespace Sys2Proof.Machine

open Claims

/-! ### The flip -/

/-- Marks made item by item, each by what the Zone Sequencer holds, which no item changes. -/
theorem mem_foldl_marks {E : Type} {f : Display → E → Display} {marked : Sequencer → E → Fin 16 → Nat → Prop}
    (hseq : ∀ d e, (f d e).seq = d.seq)
    (hmarks : ∀ d e q y, y ∈ (f d e).lines.dirty.get q ↔ y ∈ d.lines.dirty.get q ∨ marked d.seq e q y)
    (l : List E) (d : Display) (q : Fin 16) (y : Nat) :
    y ∈ (l.foldl f d).lines.dirty.get q ↔ y ∈ d.lines.dirty.get q ∨ ∃ e ∈ l, marked d.seq e q y := by
  induction l generalizing d with
  | nil => simp
  | cons x rest ih =>
    rw [List.foldl_cons, ih, hmarks, hseq, or_assoc]
    simp only [List.mem_cons, exists_eq_or_imp]

/-- The lines that a flip marks for a panel's own view (R122). -/
def FlipMarks (sc : Scene) (seq : Sequencer) (p : Fin 16) (y : Nat) : Prop :=
  ∃ row, sc.panel p = some row ∧
    ((seq.views.get p = some .fallback ∧ y < row.height) ∨
      ∃ rt n r, seq.views.get p = some .emergency ∧ seq.synthetic.get p = some rt ∧ rt.showing = .slot n ∧
        sc.slots.get n = .locked r ∧ y ∈ syntheticTextLines row (sc.bank.font row.emergencyFont).height)

theorem flipPanel_marks (sc : Scene) (d : Display) (p q : Fin 16) (y : Nat) :
    y ∈ (flipPanel sc d p).lines.dirty.get q ↔ y ∈ d.lines.dirty.get q ∨ (q = p ∧ FlipMarks sc d.seq p y) := by
  have nothing (h : ¬FlipMarks sc d.seq p y) :
      y ∈ d.lines.dirty.get q ↔ y ∈ d.lines.dirty.get q ∨ (q = p ∧ FlipMarks sc d.seq p y) := by
    rw [iff_false_intro h, and_false, or_false]
  unfold flipPanel
  split
  next hnone =>
    refine nothing ?_
    rintro ⟨row, hrow, -⟩
    rw [hnone] at hrow
    cases hrow
  next row hrow =>
    have present {P : PanelRow → Prop} : (∃ r, sc.panel p = some r ∧ P r) ↔ P row :=
      ⟨fun ⟨r, hr, hP⟩ => Option.some.inj (hr.symm.trans hrow) ▸ hP, fun hP => ⟨row, hrow, hP⟩⟩
    unfold FlipMarks at nothing ⊢
    rw [present] at nothing ⊢
    split
    next hview =>
      rw [mem_markPanel]
      refine or_congr_right (and_congr_right fun _ => ⟨fun hy => .inl ⟨hview, hy⟩, ?_⟩)
      rintro (⟨-, hy⟩ | ⟨_, _, _, hem, -⟩)
      · exact hy
      · rw [hview] at hem
        cases hem
    next rt hview hsynthetic =>
      have text : (∃ rt n r, d.seq.views.get p = some .emergency ∧ d.seq.synthetic.get p = some rt ∧ rt.showing = .slot n ∧
          sc.slots.get n = .locked r ∧ y ∈ syntheticTextLines row (sc.bank.font row.emergencyFont).height) ↔
          ∃ n r, rt.showing = .slot n ∧ sc.slots.get n = .locked r ∧
            y ∈ syntheticTextLines row (sc.bank.font row.emergencyFont).height := by
        constructor
        · rintro ⟨rt', n, r, -, hrt', hrest⟩
          rw [hsynthetic] at hrt'
          cases hrt'
          exact ⟨n, r, hrest⟩
        · rintro ⟨n, r, hrest⟩
          exact ⟨rt, n, r, hview, hsynthetic, hrest⟩
      have hfall : ¬(d.seq.views.get p = some .fallback ∧ y < row.height) := fun h => by
        rw [hview] at h
        cases h.1
      rw [text, iff_false_intro hfall, false_or] at nothing ⊢
      split
      next n hshow =>
        split
        next r hslot =>
          rw [mem_mark]
          refine or_congr_right (and_congr_right fun _ => ⟨fun hy => ⟨n, r, hshow, hslot, hy.1⟩, ?_⟩)
          rintro ⟨_, _, -, -, hy⟩
          exact ⟨hy, lt_height_of_mem_syntheticTextLines hy⟩
        next hslot =>
          refine nothing ?_
          rintro ⟨m, r, hm, hlocked, -⟩
          rw [hshow] at hm
          cases hm
          exact hslot r hlocked
      next hshow =>
        refine nothing ?_
        rintro ⟨n, _, hn, -⟩
        exact hshow n hn
    next hfall hem =>
      refine nothing ?_
      rintro (⟨hview, -⟩ | ⟨rt, _, _, hview, hsynthetic, -⟩)
      · exact hfall hview
      · exact hem rt hview hsynthetic

theorem flipZone_marks (d : Display) (e : Nat × Fin 16 × PanelRow × Zone) (q : Fin 16) (y : Nat) :
    y ∈ (flipZone d e).lines.dirty.get q ↔ y ∈ d.lines.dirty.get q ∨
      (d.seq.views.get q = some .normal ∧ q = e.2.1 ∧ e.2.2.2.language = .alternate ∧ y ∈ e.2.2.2.lines e.2.2.1) := by
  unfold flipZone
  split
  next halt =>
    rw [mem_markContent]
    refine or_congr_right ⟨?_, ?_⟩
    · rintro ⟨hview, heq, hy, -⟩
      exact ⟨heq ▸ hview, heq, halt, hy⟩
    · rintro ⟨hview, heq, -, hy⟩
      exact ⟨heq ▸ hview, heq, hy, lt_height_of_mem_clippedLines hy⟩
  next hplain => simp [hplain]

/-- The lines that a flip marks (R88, R104, R122). -/
theorem mem_flipPhase (sc : Scene) (d : Display) (p : Fin 16) (y : Nat) :
    y ∈ (flipPhase sc d).lines.dirty.get p ↔ y ∈ d.lines.dirty.get p ∨
      (d.seq.views.get p = some .normal ∧ ∃ z row zone, (z, p, row, zone) ∈ sc.zones ∧ zone.language = .alternate ∧
        y ∈ zone.lines row) ∨ FlipMarks sc d.seq p y := by
  have zoned : (sc.zones.foldl flipZone (flippedPhase d)).seq = (flippedPhase d).seq :=
    List.foldlRecOn sc.zones flipZone (motive := fun e => e.seq = (flippedPhase d).seq) rfl fun e he a _ =>
      (flipZone_seq e a).trans he
  rw [flipPhase_eq,
    mem_foldl_marks (marked := fun seq r q y => q = r ∧ FlipMarks sc seq r y) (flipPanel_seq sc) (flipPanel_marks sc),
    mem_foldl_marks (marked := fun seq e q y => seq.views.get q = some .normal ∧ q = e.2.1 ∧
      e.2.2.2.language = .alternate ∧ y ∈ e.2.2.2.lines e.2.2.1) flipZone_seq flipZone_marks, zoned, or_assoc]
  refine or_congr_right (or_congr ⟨?_, ?_⟩ ⟨?_, fun h => ⟨p, List.mem_finRange p, rfl, h⟩⟩)
  · rintro ⟨⟨z, q, row, zone⟩, hin, hview, heq, halt, hy⟩
    dsimp only at heq
    subst heq
    exact ⟨hview, z, row, zone, hin, halt, hy⟩
  · rintro ⟨hview, z, row, zone, hin, halt, hy⟩
    exact ⟨(z, p, row, zone), hin, hview, rfl, halt, hy⟩
  · rintro ⟨r, -, rfl, h⟩
    exact h

/-! ### The stages of a second after the clock -/

/-- What a property is to be kept by for the stages of a second after the ages to keep it. -/
structure LaterKept (P : State → Prop) : Prop where
  slot : ∀ s i, P s → P (tickSlot i s)
  dwells : ∀ s, P s → P (s.onDisplay tickDwells)
  language : ∀ s dwell, dwell = s.settings.languageDwell → P s → P (s.onDisplay (tickLanguage dwell))
  silence : ∀ s, P s → P (tickSilence s)
  swap : ∀ s, P s → P (tickSwap s)
  refresh : ∀ s cycle, P s → P (s.onDisplay (refreshPanels cycle))
  probes : ∀ s, P s → P (s.onDisplay fun _ d => tickProbes d)

theorem LaterKept.takeSecond {P : State → Prop} (h : LaterKept P) {s : State} (hs : P (growAges (tickClock s))) :
    P (takeSecond s) := by
  have timed : P (tickSlots (growAges (tickClock s))) := List.foldlRecOn _ _ hs fun u hu i _ => h.slot u i hu
  unfold Machine.takeSecond
  generalize tickSlots (growAges (tickClock s)) = u at timed ⊢
  exact h.probes _ (h.refresh _ _ (h.swap _ (h.silence _ (h.language _ _ rfl (h.dwells _ timed)))))

/-- A second with no swap pending applies none. -/
theorem tickSwap_none {s : State} (h : s.tables.swapPending = false) : tickSwap s = s := by
  unfold tickSwap
  rw [h]
  rfl

/-! ### A CLOCK zone's text through a second -/

/-- The runtime of a CLOCK zone. -/
def ShowsClock (z : Nat) (text : ClockText) (d : Display) : Prop := d.seq.runtimes.find z = some (.clock text)

section
variable {sc : Scene} {z : Nat} {text : ClockText} {d : Display}

theorem ShowsClock.of_changes {ps : List Part} {e : Display} (h : ShowsClock z text d) (k : DispChanges ps d e)
    (hps : .runtimes ∉ ps) : ShowsClock z text e := by
  unfold ShowsClock
  rw [k.runtimes_eq hps]
  exact h

theorem ShowsClock.setRuntime (h : ShowsClock z text d) {w : Nat} (hw : w ≠ z) (rt : Option ZoneRuntime) :
    ShowsClock z text (d.setRuntime w rt) := by
  unfold ShowsClock
  rw [setRuntime_find, if_neg hw]
  exact h

theorem ShowsClock.markContent (h : ShowsClock z text d) (p : Fin 16) (row : PanelRow) (ys : List Nat) :
    ShowsClock z text (d.markContent p row ys) := by
  unfold ShowsClock
  rw [markContent_seq]
  exact h

/-- No notice changes what a CLOCK zone shows. -/
theorem ShowsClock.takeNotice (h : ShowsClock z text d) (n : Notice) : ShowsClock z text (takeNotice n sc d) :=
  List.foldlRecOn sc.zones (noticeZone sc n) (motive := ShowsClock z text) h fun e he a _ => by
    unfold ShowsClock
    rw [noticeZone_find]
    split
    · rw [he]
      unfold noticeRuntime
      split
      · split <;> rfl
      · rfl
    · exact he

theorem ShowsClock.turnPage (h : ShowsClock z text d) (w : Nat) : ShowsClock z text (turnPage w sc d) := by
  unfold Machine.turnPage
  split
  next hpage =>
    have hw : w ≠ z := fun heq => by
      rw [heq, h] at hpage
      cases hpage
    split
    · exact (h.markContent _ _ _).setRuntime hw _
    · exact h
  · exact h

theorem ShowsClock.stepTile (h : ShowsClock z text d) (w : Nat) : ShowsClock z text (stepTile w sc d) := by
  unfold Machine.stepTile
  split
  next htile =>
    have hw : w ≠ z := fun heq => by
      rw [heq, h] at htile
      cases htile
    split
    · exact (h.markContent _ _ _).setRuntime hw _
    · exact h
  · exact h

theorem ShowsClock.onMessage (h : ShowsClock z text d) (ref : MsgZone)
    (f : MessagePlace → Scene → MessageRuntime → MessageRuntime × Mark) : ShowsClock z text (onMessage ref f sc d) := by
  cases hpl : messagePlace? sc d.seq.phase ref with
  | none => rw [onMessage_none ref f sc (.inl hpl)]; exact h
  | some pl =>
    cases hrt : d.messageRuntime? ref with
    | none => rw [onMessage_none ref f sc (.inr hrt)]; exact h
    | some rt =>
      rw [onMessage_some ref f sc hpl hrt]
      have marked : ShowsClock z text (d.markPlace pl (pl.markLines (sc.bank.font (pl.shownFont sc rt.showing)).height
          (f pl sc rt).2)) := by
        unfold ShowsClock
        rw [markPlace_seq]
        exact h
      cases ref with
      | zone w =>
        refine marked.setRuntime (fun heq => ?_) _
        unfold Display.messageRuntime? at hrt
        dsimp only at hrt
        rw [heq, h] at hrt
        cases hrt
      | synthetic p => exact marked

theorem ShowsClock.tickZone (h : ShowsClock z text d) (w : Fin 192) : ShowsClock z text (tickZone w sc d) := by
  have other {rt : Option ZoneRuntime} (hrt : d.seq.runtimes.find w.val = rt) (hclock : ∀ c, rt ≠ some (.clock c)) :
      w.val ≠ z := fun heq => by
    rw [heq, h] at hrt
    exact hclock _ hrt.symm
  unfold Machine.tickZone
  split
  next hrt =>
    split
    · exact h.turnPage _
    · exact h.setRuntime (other hrt nofun) _
  next hrt =>
    split
    · exact h.stepTile _
    · exact h.setRuntime (other hrt nofun) _
  · exact h.onMessage _ _
  · exact h
  · exact h

theorem ShowsClock.tickDwells (h : ShowsClock z text d) : ShowsClock z text (tickDwells sc d) := by
  unfold Machine.tickDwells
  dsimp only
  refine List.foldlRecOn _ _ (motive := ShowsClock z text) ?_ fun e he p _ => he.onMessage _ _
  exact List.foldlRecOn _ _ (motive := ShowsClock z text) h fun e he w _ => he.tickZone w

end

section
variable {sc : Scene} {z : Nat} {text : ClockText} {d : Display} {q : Fin 16} {row : PanelRow} {zone : Zone}
  {seconds : Bool} {align : Align} (hwf : sc.bank.zones.wf) (hz : (z, q, row, zone) ∈ sc.zones)
  (hkind : zone.kind = .clock seconds align)
include hwf hz hkind

/-- Choosing views again restarts paged zones alone. -/
theorem ShowsClock.restartPaging (h : ShowsClock z text d) (p : Fin 16) : ShowsClock z text (restartPaging p sc d) := by
  have hplain : pagedZone zone = false := by
    unfold pagedZone
    rw [hkind]
  unfold ShowsClock
  rw [restartPaging_find hwf p d hz, hplain, if_neg (by simp)]
  exact h

theorem ShowsClock.changeView (h : ShowsClock z text d) (p : Fin 16) (row : PanelRow) (view : PanelView) :
    ShowsClock z text (changeView sc p row view d) := by
  have entered : ShowsClock z text (enterView sc p row view (commandView p row view d)) := by
    unfold ShowsClock
    rw [enterView_runtimes]
    exact h
  unfold Machine.changeView
  split
  · exact entered.restartPaging hwf hz hkind p
  · exact entered

theorem ShowsClock.rechooseViews (h : ShowsClock z text d) : ShowsClock z text (rechooseViews sc d) :=
  List.foldlRecOn (List.finRange 16) _ (motive := ShowsClock z text) h fun e he p _ => by
    unfold rechooseView
    split
    · exact he
    · split
      · exact he
      · exact he.changeView hwf hz hkind p _ _

theorem ShowsClock.slotChange (h : ShowsClock z text d) (i : Fin 8) (newText : Bool) :
    ShowsClock z text (slotChange i newText sc d) := by
  unfold Machine.slotChange
  refine ShowsClock.rechooseViews hwf hz hkind ?_
  exact List.foldlRecOn _ _ (motive := ShowsClock z text) h fun e he ref _ => he.onMessage ref _

end

end Sys2Proof.Machine

/-! O29: a clock change and a language flip mark the zones that show them (R88, R103, R104, R122). -/

namespace Sys2Proof.Machine

open Claims

theorem zones_of_bank {sc sc' : Scene} (h : sc'.bank = sc.bank) : sc'.zones = sc.zones := by
  unfold Scene.zones Scene.panel
  rw [h]

theorem changeBoards_showsClock {s : State} {z : Nat} {text : ClockText} (h : ShowsClock z text s.disp)
    (f : Fin 8 → List Entry → List Entry × Option Notice) : ShowsClock z text (s.changeBoards f).disp := by
  rw [changeBoards_disp]
  refine List.foldlRecOn _ _ (motive := ShowsClock z text) h fun d hd b _ => ?_
  dsimp only
  split
  · exact hd.takeNotice _
  · exact hd

/-- What a change of the clock leaves of a CLOCK zone: it shows the clock's text, and its text lines are dirty where
that is another than it showed (R103). -/
def ClockShown (s t : State) (z : Nat) (p : Fin 16) (row : PanelRow) (zone : Zone) (seconds : Bool) (drawn : ClockText) :
    Prop :=
  t.disp.seq.runtimes.find z = some (.clock (clockTextOf t.clock seconds)) ∧
    (drawn ≠ clockTextOf t.clock seconds → s.disp.seq.views.get p = some .normal →
      Dirty t p (zone.textLines row (s.tables.activeBank.font zone.font).height))

section
variable {s : State} (hwf : s.tables.activeBank.zones.wf) {z : Nat} {p : Fin 16} {row : PanelRow} {zone : Zone}
  (hz : (z, p, row, zone) ∈ s.scene.zones) {seconds : Bool} {align : Align} (hkind : zone.kind = .clock seconds align)
  {drawn : ClockText}
include hwf hz hkind

/-- Whatever a clock change does to the boards, the CLOCK zones then look at the clock. -/
theorem clockChange_clockShown (expire : Bool) {u : State} (htables : u.tables = s.tables)
    (hshows : ShowsClock z drawn u.disp) (hviews : u.disp.seq.views = s.disp.seq.views) :
    ClockShown s (clockChange expire u) z p row zone seconds drawn := by
  have hbank : (u.changeBoards (expireBoard u.settings u.clock expire)).scene.bank = s.scene.bank :=
    congrArg TableStore.activeBank
      ((changeBoards_changes u (expireBoard u.settings u.clock expire) .tables (by decide)).trans htables)
  have hclock : (clockChange expire u).clock =
      (u.changeBoards (expireBoard u.settings u.clock expire)).scene.clock := rfl
  have hzone := (zones_of_bank hbank).symm ▸ hz
  have hboards : ShowsClock z drawn (u.changeBoards (expireBoard u.settings u.clock expire)).disp :=
    changeBoards_showsClock hshows _
  refine ⟨?_, fun hne hview y hy => ?_⟩
  · rw [hclock]
    exact clockZones_find (hbank.symm ▸ hwf) _ hzone hkind hboards
  · refine (mem_clockZones (hbank.symm ▸ hwf) _ p y).mpr (.inr ⟨?_, z, row, zone, seconds, align, drawn, hzone, hkind, hboards,
      hclock ▸ hne, by rw [hbank]; exact hy⟩)
    rw [(changeBoards_changes u (expireBoard u.settings u.clock expire) .views (by decide)).trans hviews]
    exact hview

variable (hrt : s.disp.seq.runtimes.find z = some (.clock drawn))
include hrt

/-- A TIME that the clock takes has the CLOCK zones look at it. -/
theorem takeTime_clockShown {v : Nat} (hv : v ≤ 107999) : ClockShown s (takeTime v s) z p row zone seconds drawn := by
  cases hday : startsNewDay s.clock v with
  | false =>
    rw [takeTime_sameDay hv hday]
    exact clockChange_clockShown (u := { s with clock := ⟨v, .synced, 0⟩ }) hwf hz hkind true rfl hrt rfl
  | true =>
    rw [takeTime_newDay hv hday]
    exact clockChange_clockShown (u := { startNewDay s with clock := ⟨v, .synced, 0⟩ }) hwf hz hkind true
      (startNewDay_changes s .tables (by decide)) (changeBoards_showsClock (s := s) hrt emptied)
      (startNewDay_changes s .views (by decide))

theorem tickClock_clockShown
    (hmoved : ¬((secondClock s.clock).value = s.clock.value ∧ (secondClock s.clock).state = s.clock.state)) :
    ClockShown s (tickClock s) z p row zone seconds drawn := by
  rw [tickClock_changed hmoved]
  exact clockChange_clockShown (u := { s with clock := secondClock s.clock }) hwf hz hkind _ rfl hrt rfl

theorem takePulse_clockShown (hmoved : (takePulse s).clock.value ≠ s.clock.value ∨ (takePulse s).clock.state ≠ s.clock.state) :
    ClockShown s (takePulse s) z p row zone seconds drawn := by
  unfold takePulse at hmoved ⊢
  split
  next h => simp [h] at hmoved
  next hset =>
    rw [if_neg hset] at hmoved
    split
    next h =>
      rw [if_pos h] at hmoved
      exact absurd rfl (hmoved.elim id fun h => absurd rfl h)
    next hquiet =>
      rw [if_neg hquiet] at hmoved
      dsimp only at hmoved ⊢
      split
      next h =>
        rw [if_pos h] at hmoved
        exact absurd h (not_and_or.mpr hmoved)
      next h =>
        exact clockChange_clockShown (u := { s with clock := pulsedClock s.clock }) hwf hz hkind _ rfl hrt rfl

end

/-! ### The rest of a second -/

/-- A refresh marks the panel's next lines, while it is ONLINE (R127). -/
theorem mem_refreshPanel (cycle : Nat) (sc : Scene) (d : Display) (p q : Fin 16) (y : Nat) :
    y ∈ (refreshPanel cycle sc d p).lines.dirty.get q ↔ y ∈ d.lines.dirty.get q ∨
      (q = p ∧ (d.panels.get p).state = .online ∧ ∃ row, sc.panel p = some row ∧ y < row.height ∧
        y ∈ refreshLines row.height (d.lines.cursor.get p) (ceilDiv row.height cycle)) := by
  unfold refreshPanel
  split
  next hnone => simp [hnone]
  next row hrow =>
    split
    next honline =>
      refine mem_mark.trans (or_congr_right (and_congr_right fun _ => ⟨fun ⟨hy, hlt⟩ => ⟨honline, row, hrow, hlt, hy⟩, ?_⟩))
      rintro ⟨-, row', hrow', hlt, hy⟩
      rw [hrow] at hrow'
      cases hrow'
      exact ⟨hy, hlt⟩
    next hoffline => simp [hoffline]

/-- What is dirty stays so through a refresh. -/
theorem dirty_refreshPanels (cycle : Nat) (sc : Scene) {d : Display} {p : Fin 16} {y : Nat} (hy : y ∈ d.lines.dirty.get p) :
    y ∈ (refreshPanels cycle sc d).lines.dirty.get p := by
  unfold refreshPanels
  split
  · exact hy
  · exact List.foldlRecOn _ _ (motive := fun e => y ∈ e.lines.dirty.get p) hy fun e he q _ =>
      (mem_refreshPanel cycle sc e q p y).mpr (.inl he)

/-- A CLOCK zone that has looked at the clock, with the tables that name it and the lines it has marked. -/
def ClockStands (s : State) (z : Nat) (text : ClockText) (p : Fin 16) (ys : List Nat) (u : State) : Prop :=
  u.tables = s.tables ∧ ShowsClock z text u.disp ∧ Dirty u p ys

section
variable {s u : State} {z : Nat} {text : ClockText} {p : Fin 16} {ys : List Nat}

theorem ClockStands.of_changes {t : State} (h : ClockStands s z text p ys u) {ps : List Part} (k : OnlyChanges ps u t)
    (hps : ∀ part ∈ [Part.tables, .runtimes, .dirty], part ∉ ps) : ClockStands s z text p ys t := by
  obtain ⟨htables, hshows, hdirty⟩ := h
  refine ⟨(k .tables (hps _ (by simp))).trans htables, ?_, fun y hy => ?_⟩
  · unfold ShowsClock
    rw [show t.disp.seq.runtimes = u.disp.seq.runtimes from k .runtimes (hps _ (by simp))]
    exact hshows
  · rw [show t.disp.lines.dirty = u.disp.lines.dirty from k .dirty (hps _ (by simp))]
    exact hdirty y hy

/-- A step of the display that only marks lines keeps a CLOCK zone whose runtime it leaves. -/
theorem ClockStands.onDisplay (h : ClockStands s z text p ys u) {f : Scene → Display → Display}
    (hdrawn : ∀ sc d, Drawn sc.panel d (f sc d)) (hshows : ShowsClock z text (f u.scene u.disp)) :
    ClockStands s z text p ys (u.onDisplay f) :=
  ⟨h.1, hshows, fun y hy => (hdrawn u.scene u.disp).mem (h.2.2 y hy)⟩

end

/-- No stage of a second after the clock changes what a CLOCK zone shows, where no swap is pending. -/
theorem clockStands_laterKept {s : State} (hwf : s.tables.activeBank.zones.wf) (hswap : s.tables.swapPending = false) {z : Nat}
    {q : Fin 16} {row : PanelRow} {zone : Zone} (hz : (z, q, row, zone) ∈ s.scene.zones) {seconds : Bool} {align : Align}
    (hkind : zone.kind = .clock seconds align) (text : ClockText) (p : Fin 16) (ys : List Nat) :
    LaterKept (ClockStands s z text p ys) where
  slot u i h := by
    unfold tickSlot
    split
    · split
      · have hbank : u.scene.bank = s.scene.bank := congrArg TableStore.activeBank h.1
        refine ClockStands.onDisplay (u := { u with slots := u.slots.set i .free }) h (slotChange_drawn · i false) ?_
        refine ShowsClock.slotChange (q := q) (row := row) (zone := zone) (seconds := seconds) (align := align) ?_ ?_ hkind h.2.1
          i false
        · exact hbank.symm ▸ hwf
        · exact (zones_of_bank hbank).symm ▸ hz
      · exact h
    · exact h
    · exact h
    · exact h
  dwells u h := h.onDisplay tickDwells_drawn h.2.1.tickDwells
  language u dwell _ h := h.onDisplay (tickLanguage_drawn · dwell)
    (h.2.1.of_changes (tickLanguage_changes dwell u.scene u.disp) (by decide))
  silence u h := by
    have counted (silent : Bool) : ClockStands s z text p ys
        (u.onTrunk (TrunkPort.setSilence (saturate 65535 u.trunk.silence) silent)) := h
    have hbank : u.scene.bank = s.scene.bank := congrArg TableStore.activeBank h.1
    unfold tickSilence
    split
    · refine (counted true).onDisplay rechooseViews_drawn ?_
      refine ShowsClock.rechooseViews (q := q) (row := row) (zone := zone) (seconds := seconds) (align := align) ?_ ?_ hkind
        h.2.1
      · exact (show u.scene.bank.zones.wf from hbank.symm ▸ hwf)
      · exact (zones_of_bank (sc' := u.scene) hbank).symm ▸ hz
    · exact counted _
  swap u h := by
    rw [tickSwap_none (h.1.symm ▸ hswap)]
    exact h
  refresh u cycle h := by
    obtain ⟨htables, hshows, hdirty⟩ := h
    refine ⟨htables, hshows.of_changes (refreshPanels_changes cycle u.scene u.disp) (by decide), fun y hy => ?_⟩
    exact dirty_refreshPanels cycle u.scene (hdirty y hy)
  probes u h := h.of_changes (onDisplay_changes (fun _ d => tickProbes_changes d) u) (by decide)

/-- A second with no swap pending that moves the clock leaves the CLOCK zones as the change of the clock does. -/
theorem takeSecond_clockShown {s : State} (hwf : s.tables.activeBank.zones.wf) (hswap : s.tables.swapPending = false) {z : Nat}
    {p : Fin 16} {row : PanelRow} {zone : Zone} (hz : (z, p, row, zone) ∈ s.scene.zones) {seconds : Bool} {align : Align}
    (hkind : zone.kind = .clock seconds align) {drawn : ClockText} (hrt : s.disp.seq.runtimes.find z = some (.clock drawn))
    (hmoved : ¬((secondClock s.clock).value = s.clock.value ∧ (secondClock s.clock).state = s.clock.state)) :
    ClockShown s (takeSecond s) z p row zone seconds drawn := by
  obtain ⟨hfind, hmarks⟩ := tickClock_clockShown hwf hz hkind hrt hmoved
  have hclock : (tickClock s).clock = (takeSecond s).clock := (tickClock_clock s).trans (takeSecond_clock s).symm
  rw [hclock] at hfind hmarks
  have stands (ys : List Nat) (hdirty : Dirty (tickClock s) p ys) :
      ClockStands s z (clockTextOf (takeSecond s).clock seconds) p ys (takeSecond s) := by
    refine (clockStands_laterKept hwf hswap hz hkind _ p ys).takeSecond ?_
    have hticked : (tickClock s).tables = s.tables := tickClock_changes s .tables (by decide)
    exact ⟨(growAges_changes _ .tables (by decide)).trans hticked, changeBoards_showsClock hfind _,
      fun y hy => (changeBoards_redrawn _ _).drawn.mem (hdirty y hy)⟩
  exact ⟨(stands [] nofun).2.1, fun hne hview => (stands _ (hmarks hne hview)).2.2⟩

/-! ### The language flip -/

theorem tickLanguage_flips {dwell : Nat} {d : Display} (h : dwell ≤ d.seq.langCount + 1) (sc : Scene) :
    tickLanguage dwell sc d = flipPhase sc d := if_pos (decide_eq_true h)

/-- Settles O29. -/
theorem clockAndLanguageChangesMarkTheirZones : Obligations.ClockAndLanguageChangesMarkTheirZones := by
  refine ⟨fun sc d hwf => ⟨mem_clockZones hwf d, fun z p row zone seconds align drawn hz hkind hrt =>
    clockZones_find hwf d hz hkind hrt⟩, fun c s hwf hc => ?_, fun s hflip => ?_⟩
  · rcases hc with ⟨rfl, hswap⟩ | rfl | rfl | ⟨v, rfl⟩
    · refine ⟨takeSecond s, rfl, fun hmoved z p row zone seconds align drawn hz hkind hrt =>
        takeSecond_clockShown hwf hswap hz hkind hrt ?_⟩
      rw [takeSecond_clock] at hmoved
      exact not_and_or.mpr hmoved
    · exact ⟨takePulse s, rfl, fun hmoved z p row zone seconds align drawn hz hkind hrt =>
        takePulse_clockShown hwf hz hkind hrt hmoved⟩
    · by_cases hdue : driftDue s.clock = true
      · refine ⟨tickClock s, congrArg Host.Outcome.next (if_pos hdue),
          fun hmoved z p row zone seconds align drawn hz hkind hrt => tickClock_clockShown hwf hz hkind hrt ?_⟩
        rw [tickClock_clock] at hmoved
        exact not_and_or.mpr hmoved
      · exact ⟨s, congrArg Host.Outcome.next (if_neg hdue), fun hmoved => absurd rfl (hmoved.elim id fun h => absurd rfl h)⟩
    · refine ⟨takeTime v s, rfl, fun hmoved z p row zone seconds align drawn hz hkind hrt => ?_⟩
      refine takeTime_clockShown hwf hz hkind hrt (Nat.le_of_not_lt fun hv => ?_)
      have hrefused : takeTime v s = s.refuse timeKind .badField := if_pos hv
      rw [hrefused] at hmoved
      exact absurd rfl (hmoved.elim id fun h => absurd rfl h)
  · have hdue : flipDue s.settings.languageDwell s.disp = true := decide_eq_true hflip
    refine ⟨s.onDisplay flipPhase, congrArg Host.Outcome.next ?_, ?_, ?_, fun p y => ?_, ?_⟩
    · rw [if_pos hdue]
      exact congrArg (fun d => ({ s with disp := d } : State)) (tickLanguage_flips hflip s.scene)
    · show (flipPhase s.scene s.disp).seq.phase = _
      rw [flipPhase_seq]
      show s.disp.seq.phase.other = _
      cases s.disp.seq.phase <;> rfl
    · show (flipPhase s.scene s.disp).seq.langCount = 0
      rw [flipPhase_seq]
    · exact mem_flipPhase s.scene s.disp p y
    · exact onDisplay_changes flipPhase_changes s

end Sys2Proof.Machine

/-! Pages, tiles and message places: what a change of one place's runtime does, and how a place moves on (R91 to R102). -/

namespace Sys2Proof.Machine

open Claims

/-! ### Paged and stepping zones (R92, R102) -/

/-- A zone's runtime written with marks of its content: no other line and no other runtime. -/
theorem contentWritten {s : State} {f : Scene → Display → Display} {p : Fin 16} {row : PanelRow} {ys : List Nat} {z : Fin 192}
    {rt : Option ZoneRuntime} (hdisp : f s.scene s.disp = (s.disp.markContent p row ys).setRuntime z.val rt)
    (hys : ∀ y ∈ ys, y < row.height) :
    (s.onDisplay f).disp.seq.runtimes.find z.val = rt ∧
      MarksOnly p (fun y => s.disp.seq.views.get p = some .normal ∧ y ∈ ys) s (s.onDisplay f) ∧
      OtherRuntimes (.zone z) s (s.onDisplay f) ∧ OnlyChanges [.runtimes, .dirty] s (s.onDisplay f) := by
  unfold MarksOnly OtherRuntimes
  have hset : (s.onDisplay f).disp = (s.disp.markContent p row ys).setRuntime z.val rt := hdisp
  refine ⟨by rw [hset, setRuntime_find, if_pos rfl], fun q y => ?_, ⟨fun w hw => ?_, fun q _ => ?_⟩, ?_⟩
  · rw [hset]
    refine mem_markContent.trans (or_congr_right ⟨?_, ?_⟩)
    · rintro ⟨hview, heq, hy, -⟩
      exact ⟨heq, hview, hy⟩
    · rintro ⟨heq, hview, hy⟩
      exact ⟨hview, heq, hy, hys y hy⟩
  · rw [hset, setRuntime_find, if_neg (hw z rfl), markContent_seq]
  · rw [hset]
    exact congrArg (fun seq => seq.synthetic.get q) (markContent_seq _ _ _ _)
  · have changes := ((markContent_changes s.disp p row ys).mono (qs := [.runtimes, .dirty]) (by decide)).trans
      ((setRuntime_changes _ z.val rt).mono (by decide))
    rw [← hdisp] at changes
    exact changes s

theorem turnPage_of {sc : Scene} {d : Display} {z : Nat} {p : Fin 16} {row : PanelRow} {zone : Zone} {board : Fin 8}
    {format first rows gap pages dwell index left : Nat} {snapshot : List (Option Nat)} (hz : sc.zone z = some (p, row, zone))
    (hkind : zone.kind = .rows board format first rows gap pages dwell)
    (hrt : d.seq.runtimes.find z = some (.page index snapshot left)) :
    turnPage z sc d =
      (d.markContent p row ((List.range rows).flatMap (zone.rowLines row (sc.bank.font zone.font).height gap))).setRuntime z
        (some (.page ((index + 1) % pageCount (sc.boards.get board).length first rows pages)
          (pageSnapshot (sc.boards.get board) first rows
            ((index + 1) % pageCount (sc.boards.get board).length first rows pages)) dwell)) := by
  simp only [turnPage, hz, hrt, hkind]

theorem stepTile_of {sc : Scene} {d : Display} {z : Nat} {p : Fin 16} {row : PanelRow} {zone : Zone}
    {first last dwell current left : Nat} (hz : sc.zone z = some (p, row, zone)) (hkind : zone.kind = .tile first last dwell)
    (hrt : d.seq.runtimes.find z = some (.tile current left)) :
    stepTile z sc d = (d.markContent p row (zone.clippedLines row zone.y 16)).setRuntime z
      (some (.tile (if current = last then first else current + 1) dwell)) := by
  simp only [stepTile, hz, hrt, hkind]

/-- Settles O27. -/
theorem pagesTurnAndTilesStep : Obligations.PagesTurnAndTilesStep := by
  refine ⟨fun z p row zone board format first rows gap pages dwell index left snapshot s hz hkind hrt hleft => ?_,
    fun z p row zone first last dwell current left s hz hkind hrt hleft => ?_⟩
  · have hdue : dwellDue s.disp z = true := by simp [dwellDue, hrt, hleft]
    obtain ⟨hfind, hmarks, hother, hframe⟩ := contentWritten (z := z) (turnPage_of hz hkind hrt) fun y hy => by
      obtain ⟨i, -, hy⟩ := List.mem_flatMap.mp hy
      exact lt_height_of_mem_clippedLines hy
    refine ⟨_, congrArg Host.Outcome.next (if_pos hdue), hfind, fun q y => ?_, hother, hframe⟩
    rw [hmarks q y]
    simp only [List.mem_flatMap, List.mem_range]
    rfl
  · have hdue : dwellDue s.disp z = true := by simp [dwellDue, hrt, hleft]
    exact ⟨_, congrArg Host.Outcome.next (if_pos hdue),
      contentWritten (z := z) (stepTile_of hz hkind hrt) fun y hy => lt_height_of_mem_clippedLines hy⟩

/-! ### One message place changed -/

theorem mem_markPlace {d : Display} {pl : MessagePlace} {ys : List Nat} {q : Fin 16} {y : Nat} :
    y ∈ (d.markPlace pl ys).lines.dirty.get q ↔ y ∈ d.lines.dirty.get q ∨
      (q = pl.panel ∧ (pl.zone = none ∨ d.seq.views.get pl.panel = some .normal) ∧ y ∈ ys ∧ y < pl.row.height) := by
  unfold Display.markPlace
  split
  next hzone => simp [mem_markContent, hzone, and_left_comm]
  next hzone => simp [mem_mark, hzone]

theorem markPlace_changes (d : Display) (pl : MessagePlace) (ys : List Nat) : DispChanges [.dirty] d (d.markPlace pl ys) := by
  unfold Display.markPlace
  split
  · exact markContent_changes d _ _ ys
  · exact mark_changes d _ _ ys

theorem markLines_whole (pl : MessagePlace) (h : Nat) : pl.markLines h .whole = linesAt pl := rfl

theorem markLines_text (pl : MessagePlace) (h : Nat) : pl.markLines h .text = textLinesAt pl h := rfl

/-- Every line that a change of a place marks is one of the panel's. -/
theorem lt_height_of_mem_markLines {pl : MessagePlace} {h : Nat} {m : Mark} {y : Nat} (hy : y ∈ pl.markLines h m) :
    y < pl.row.height := by
  unfold MessagePlace.markLines at hy
  cases m with
  | nothing => cases hy
  | text =>
    dsimp only at hy
    split at hy
    · exact lt_height_of_mem_clippedLines hy
    · exact lt_height_of_mem_syntheticTextLines hy
  | whole =>
    dsimp only at hy
    split at hy
    · exact lt_height_of_mem_clippedLines hy
    · exact List.mem_range.mp hy

theorem messageRuntime?_setMessageRuntime (d : Display) (ref other : MsgZone) (rt : MessageRuntime) :
    (d.setMessageRuntime ref rt).messageRuntime? other = if ref = other then some rt else d.messageRuntime? other := by
  cases ref with
  | zone z =>
    cases other with
    | zone w =>
      unfold Display.messageRuntime? Display.setMessageRuntime
      dsimp only
      rw [setRuntime_find]
      by_cases heq : z = w
      · rw [if_pos (congrArg Fin.val heq), if_pos (congrArg MsgZone.zone heq)]
      · rw [if_neg fun h => heq (Fin.ext h), if_neg fun h => heq (MsgZone.zone.inj h)]
    | synthetic p => rfl
  | synthetic p =>
    cases other with
    | zone w => rfl
    | synthetic q =>
      refine (Vec.get_set ..).trans (if_congr ?_ rfl rfl)
      exact ⟨congrArg MsgZone.synthetic, MsgZone.synthetic.inj⟩

theorem messageRuntime?_markPlace (d : Display) (pl : MessagePlace) (ys : List Nat) (ref : MsgZone) :
    (d.markPlace pl ys).messageRuntime? ref = d.messageRuntime? ref := by
  unfold Display.messageRuntime?
  rw [markPlace_seq]

theorem setMessageRuntime_lines (d : Display) (ref : MsgZone) (rt : MessageRuntime) :
    (d.setMessageRuntime ref rt).lines = d.lines := by
  cases ref <;> rfl

theorem setMessageRuntime_changes_part (d : Display) (ref : MsgZone) (rt : MessageRuntime) :
    DispChanges [runtimePart ref] d (d.setMessageRuntime ref rt) := by
  cases ref with
  | zone z => exact setRuntime_changes d z.val _
  | synthetic p => exact fun s part hp => by cases part <;> simp_all [State.agrees, Display.setMessageRuntime, runtimePart]

/-- A change of one message place: its runtime, the lines it marks, and no other runtime and no other line. -/
theorem messageWritten {s : State} {ref : MsgZone} {pl : MessagePlace} {rt : MessageRuntime}
    (f : MessagePlace → Scene → MessageRuntime → MessageRuntime × Mark)
    (hpl : messagePlace? s.scene s.disp.seq.phase ref = some pl) (hrt : s.disp.messageRuntime? ref = some rt) :
    (s.onDisplay (onMessage ref f)).disp.messageRuntime? ref = some (f pl s.scene rt).1 ∧
      MarksOnly pl.panel (fun y => MarksTaken s pl ∧
        y ∈ pl.markLines (s.scene.bank.font (pl.shownFont s.scene rt.showing)).height (f pl s.scene rt).2) s
        (s.onDisplay (onMessage ref f)) ∧
      OtherRuntimes ref s (s.onDisplay (onMessage ref f)) ∧
      OnlyChanges [runtimePart ref, .dirty] s (s.onDisplay (onMessage ref f)) := by
  have hdisp : (s.onDisplay (onMessage ref f)).disp = _ := onMessage_some ref f s.scene hpl hrt
  unfold MarksOnly OtherRuntimes
  refine ⟨by rw [hdisp, messageRuntime?_setMessageRuntime, if_pos rfl], fun q y => ?_, ?_, ?_⟩
  · rw [hdisp, setMessageRuntime_lines, mem_markPlace]
    refine or_congr_right (and_congr_right fun _ => and_congr_right fun _ => and_iff_left_of_imp fun hy =>
      lt_height_of_mem_markLines hy)
  · rw [hdisp]
    refine ⟨fun z hz => ?_, fun p hp => ?_⟩
    · cases ref with
      | zone w =>
        refine (setRuntime_find _ _ _ _).trans ((if_neg (hz w rfl)).trans ?_)
        rw [markPlace_seq]
      | synthetic p => exact congrArg (fun seq => seq.runtimes.find z) (markPlace_seq _ _ _)
    · rw [setMessageRuntime_synthetic, if_neg hp, markPlace_seq]
  · have changes := ((markPlace_changes s.disp pl (pl.markLines (s.scene.bank.font (pl.shownFont s.scene rt.showing)).height
        (f pl s.scene rt).2)).mono (qs := [runtimePart ref, .dirty]) (by simp)).trans
      ((setMessageRuntime_changes_part _ ref (f pl s.scene rt).1).mono (by simp))
    exact (onMessage_some ref f s.scene hpl hrt ▸ changes) s

/-! ### Moving on (R96 to R98) -/

section
variable (pl : MessagePlace) (sc : Scene) (rt : MessageRuntime)

theorem begin_offset : (pl.begin sc rt).offset = 0 := (begin_afresh pl sc rt).1

theorem showSlot_shows (n : Fin 8) :
    (pl.showSlot sc rt n).showing = .slot n ∧ (pl.showSlot sc rt n).cursor = n ∧ Afresh pl sc (pl.showSlot sc rt n) :=
  ⟨begin_showing _ _ _, begin_cursor _ _ _, begin_afresh _ _ _⟩

theorem showNone_shows :
    ShowsNoSlot pl (pl.showNone sc rt) ∧ (pl.showNone sc rt).cursor = rt.cursor ∧ Afresh pl sc (pl.showNone sc rt) :=
  ⟨unshown_showsNoSlot pl _ (begin_showing _ _ _), begin_cursor _ _ _, begin_afresh _ _ _⟩

theorem unshown_ne_slot (n : Fin 8) : pl.unshown ≠ .slot n := by
  unfold MessagePlace.unshown
  split <;> nofun

theorem showNone_ne_slot (n : Fin 8) : (pl.showNone sc rt).showing ≠ .slot n := by
  rw [show (pl.showNone sc rt).showing = pl.unshown from begin_showing _ _ _]
  exact unshown_ne_slot pl n

theorem moveOn_movesOn : MovesOn pl sc rt (pl.moveOn sc rt).1 := by
  unfold MovesOn MessagePlace.moveOn MessagePlace.group
  dsimp only
  refine ⟨fun hidle => ?_, fun slot next hslot hnext => ?_, fun slot hslot hnone => ?_⟩
  · rw [hidle]
    exact ⟨(begin_showing _ _ _).trans hidle, begin_cursor _ _ _, begin_afresh _ _ _⟩
  · rw [hslot]
    dsimp only
    rw [hnext]
    dsimp only
    split
    next heq => exact ⟨by rw [begin_showing, hslot, heq], begin_cursor _ _ _, begin_afresh _ _ _⟩
    next hne => exact showSlot_shows pl sc rt next
  · rw [hslot]
    dsimp only
    rw [hnone]
    unfold MessagePlace.leaveSlot
    cases pl.zone with
    | none => rfl
    | some zone => exact showNone_shows pl sc rt

/-- A place that moves on shows the same text and marks nothing, or shows another and marks all its lines. -/
theorem moveOn_stays_or_marks :
    ((pl.moveOn sc rt).1.showing = rt.showing ∧ (pl.moveOn sc rt).2 = .nothing) ∨
      ((pl.moveOn sc rt).1.showing ≠ rt.showing ∧ (pl.moveOn sc rt).2 = .whole) := by
  unfold MessagePlace.moveOn
  cases hshowing : rt.showing with
  | slot n =>
    dsimp only
    cases successor n (pl.group sc) with
    | some t =>
      dsimp only
      by_cases heq : t = n
      · rw [if_pos heq]
        exact .inl ⟨(begin_showing _ _ _).trans hshowing, rfl⟩
      · rw [if_neg heq]
        refine .inr ⟨?_, rfl⟩
        rw [(showSlot_shows pl sc rt t).1]
        exact fun h => heq (Showing.slot.inj h)
    | none =>
      dsimp only
      unfold MessagePlace.leaveSlot
      split
      · exact .inl ⟨hshowing, rfl⟩
      · exact .inr ⟨showNone_ne_slot pl sc rt n, rfl⟩
  | idle => exact .inl ⟨(begin_showing _ _ _).trans hshowing, rfl⟩
  | empty => exact .inl ⟨hshowing, rfl⟩

/-- A place that moves on marks all its lines exactly where it then shows another text. -/
theorem moveOn_mark : (pl.moveOn sc rt).2 = if (pl.moveOn sc rt).1.showing = rt.showing then .nothing else .whole := by
  rcases moveOn_stays_or_marks pl sc rt with ⟨hshowing, hmark⟩ | ⟨hshowing, hmark⟩
  · rw [hmark, if_pos hshowing]
  · rw [hmark, if_neg hshowing]

theorem moveOn_offset (h : rt.offset = 0) : (pl.moveOn sc rt).1.offset = 0 := by
  unfold MessagePlace.moveOn
  split
  · split
    · split <;> exact begin_offset pl sc _
    · unfold MessagePlace.leaveSlot
      split
      · exact h
      · exact begin_offset pl sc _
  · exact begin_offset pl sc _
  · exact h

end

theorem step_moves {pl : MessagePlace} {sc : Scene} {rt : MessageRuntime} {interval : Nat} (htimer : rt.stepTimer = some interval)
    (h : rt.offset + 1 < pl.shownWidth sc rt.showing + pl.width) :
    pl.step sc rt = ({ rt with offset := rt.offset + 1 }, .text) := by
  unfold MessagePlace.step
  rw [htimer]
  exact if_neg (Nat.not_le_of_lt h)

theorem step_completes {pl : MessagePlace} {sc : Scene} {rt : MessageRuntime} {interval : Nat}
    (htimer : rt.stepTimer = some interval) (h : pl.shownWidth sc rt.showing + pl.width ≤ rt.offset + 1) :
    pl.step sc rt = ((pl.moveOn sc { rt with offset := 0 }).1,
      if (pl.moveOn sc { rt with offset := 0 }).1.showing = rt.showing then .text else .whole) := by
  have hmark := moveOn_mark pl sc { rt with offset := 0 }
  generalize hmoved : pl.moveOn sc { rt with offset := 0 } = moved at hmark ⊢
  obtain ⟨rt', m⟩ := moved
  unfold MessagePlace.step
  rw [htimer] at hmoved ⊢
  dsimp only at hmark ⊢
  rw [if_pos h, hmoved, hmark]
  by_cases hsame : rt'.showing = rt.showing
  · simp only [if_pos hsame]
  · simp only [if_neg hsame]

theorem tick_expires {pl : MessagePlace} {sc : Scene} {rt : MessageRuntime} {left : Nat} (hdwell : rt.dwell = some left)
    (h : left ≤ 1) : pl.tick sc rt = pl.moveOn sc rt := by
  unfold MessagePlace.tick
  rw [hdwell]
  exact if_pos h

theorem tick_counts {pl : MessagePlace} {sc : Scene} {rt : MessageRuntime} {left : Nat} (hdwell : rt.dwell = some left)
    (h : 2 ≤ left) : pl.tick sc rt = ({ rt with dwell := some (left - 1) }, .nothing) := by
  unfold MessagePlace.tick
  rw [hdwell]
  exact if_neg (Nat.not_le_of_lt h)

theorem tick_rests {pl : MessagePlace} {sc : Scene} {rt : MessageRuntime} (hdwell : rt.dwell = none) :
    pl.tick sc rt = (rt, .nothing) := by
  unfold MessagePlace.tick
  rw [hdwell]

theorem execMessageDwellExpiry_of {ref : MsgZone} {rt : MessageRuntime} {left : Nat} {s : State}
    (hrt : s.disp.messageRuntime? ref = some rt) (hdwell : rt.dwell = some left) (hleft : left ≤ 1) :
    exec (.messageDwellExpiry ref) s = .next (s.onDisplay (onMessage ref MessagePlace.tick)) := by
  have hdue : rt.dwellDue = true := by simp [MessageRuntime.dwellDue, hdwell, hleft]
  show execMessageDwellExpiry ref s = _
  unfold execMessageDwellExpiry
  rw [hrt]
  exact congrArg Host.Outcome.next (if_pos hdue)

/-- Settles O28. -/
theorem messageTextsScrollAndDwell : Obligations.MessageTextsScrollAndDwell := by
  refine ⟨fun ref pl rt interval s hpl hrt htimer => ?_, fun ref pl rt left s hpl hrt hdwell hleft _ => ?_⟩
  · obtain ⟨hfind, hmarks, hother, hframe⟩ := messageWritten MessagePlace.step hpl hrt
    refine ⟨_, _, rfl, hfind, fun hmore => ?_, fun hdone => ?_, ?_, hother, hframe⟩
    · rw [step_moves htimer hmore]
    · rw [step_completes htimer hdone]
      exact ⟨moveOn_offset pl _ _ rfl, moveOn_movesOn pl _ _⟩
    · intro q y
      rw [hmarks q y]
      by_cases hdone : pl.shownWidth s.scene rt.showing + pl.width ≤ rt.offset + 1
      · rw [step_completes htimer hdone]
        dsimp only
        split <;> rfl
      · rw [step_moves htimer (Nat.lt_of_not_le hdone)]
        dsimp only
        rw [if_pos rfl]
        rfl
  · obtain ⟨hfind, hmarks, hother, hframe⟩ := messageWritten MessagePlace.tick hpl hrt
    rw [tick_expires hdwell hleft] at hfind hmarks
    refine ⟨_, _, execMessageDwellExpiry_of hrt hdwell hleft, hfind, moveOn_movesOn pl _ _, fun q y => ?_, hother, hframe⟩
    rw [hmarks q y, moveOn_mark]
    refine or_congr_right (and_congr_right fun _ => and_congr_right fun _ => ?_)
    split
    next hsame => exact iff_of_false List.not_mem_nil fun h => h.1 hsame
    next hother => exact (and_iff_right hother).symm

end Sys2Proof.Machine

/-! A change of a slot handed on: the message places judged again, then the views chosen again (R99, R106, R120, R121). -/

namespace Sys2Proof.Machine

open Claims

/-! ### One place judged again (R99) -/

theorem successor_mem {cursor next : Fin 8} {slots : Vec Slot 8} {p : Fin 16} {floor : Priority}
    (h : successor cursor (topGroup slots p floor) = some next) : next ∈ topGroup slots p floor :=
  (successor_lowest (topGroup_rising slots p floor) h).1

section
variable (pl : MessagePlace) (sc : Scene) (i : Fin 8) (newText : Bool) (rt : MessageRuntime)
  (hfull : pl.zone = none → topGroup sc.slots pl.panel pl.floor ≠ [])
include hfull

/-- A place judged again does as R99 says; a synthetic zone stands only while its group holds a slot. -/
theorem rejudge_rejudged : Rejudged pl sc i newText rt (pl.rejudge i newText sc rt).1 := by
  unfold Rejudged MessagePlace.rejudge MessagePlace.group
  dsimp only
  refine ⟨fun n hn hin => ?_, fun n hn hout => ⟨fun next hnext => ?_, fun hempty => ?_⟩,
    fun hno => ⟨fun next hnext => ?_, fun hempty => ?_⟩⟩
  · rw [hn]
    dsimp only
    rw [if_pos hin]
    by_cases hnew : newText = true ∧ n = i
    · rw [if_pos hnew, if_pos hnew.symm]
      exact ⟨(begin_showing _ _ _).trans hn, begin_cursor _ _ _, begin_afresh _ _ _⟩
    · rw [if_neg hnew, if_neg fun h => hnew h.symm]
  · rw [hn]
    dsimp only
    rw [if_neg hout, hnext]
    exact showSlot_shows pl sc rt next
  · rw [hn]
    dsimp only
    rw [if_neg hout, successor_eq_none_iff.mpr hempty]
    dsimp only
    unfold MessagePlace.leaveSlot
    rw [if_neg fun hnone => hfull (Option.isNone_iff_eq_none.mp hnone) hempty]
    exact showNone_shows pl sc rt
  · rcases hno with hno | hno <;>
    · rw [hno]
      dsimp only
      rw [hnext]
      exact showSlot_shows pl sc rt next
  · rcases hno with hno | hno <;>
    · rw [hno]
      dsimp only
      rw [successor_eq_none_iff.mpr hempty]

/-- A place judged again marks all its lines exactly where it shows another slot or a new text. -/
theorem rejudge_marks (height y : Nat) :
    y ∈ pl.markLines height (pl.rejudge i newText sc rt).2 ↔ y ∈ linesAt pl ∧
      ((pl.rejudge i newText sc rt).1.showing ≠ rt.showing ∨ (newText = true ∧ rt.showing = .slot i)) := by
  have whole {rt' : MessageRuntime} (h : rt'.showing ≠ rt.showing ∨ (newText = true ∧ rt.showing = .slot i)) :
      y ∈ pl.markLines height .whole ↔ y ∈ linesAt pl ∧
        (rt'.showing ≠ rt.showing ∨ (newText = true ∧ rt.showing = .slot i)) := (and_iff_left h).symm
  have nothing (h : ¬(newText = true ∧ rt.showing = .slot i)) :
      y ∈ pl.markLines height .nothing ↔ y ∈ linesAt pl ∧
        (rt.showing ≠ rt.showing ∨ (newText = true ∧ rt.showing = .slot i)) :=
    iff_of_false List.not_mem_nil fun hy => hy.2.elim (fun hne => hne rfl) h
  unfold MessagePlace.rejudge MessagePlace.group
  cases hshowing : rt.showing with
  | slot n =>
    rw [hshowing] at whole nothing
    dsimp only
    by_cases hin : n ∈ topGroup sc.slots pl.panel pl.floor
    · rw [if_pos hin]
      by_cases hnew : n = i ∧ newText = true
      · rw [if_pos hnew]
        exact whole (.inr ⟨hnew.2, congrArg Showing.slot hnew.1⟩)
      · rw [if_neg hnew, hshowing]
        exact nothing fun h => hnew ⟨Showing.slot.inj h.2, h.1⟩
    · rw [if_neg hin]
      cases hnext : successor n (topGroup sc.slots pl.panel pl.floor) with
      | some next =>
        refine whole (.inl ?_)
        rw [(showSlot_shows pl sc rt next).1]
        exact fun heq => hin (Showing.slot.inj heq ▸ successor_mem hnext)
      | none =>
        dsimp only
        unfold MessagePlace.leaveSlot
        rw [if_neg fun hnone => hfull (Option.isNone_iff_eq_none.mp hnone) (successor_eq_none_iff.mp hnext)]
        exact whole (.inl (showNone_ne_slot pl sc rt n))
  | idle | empty =>
    rw [hshowing] at whole nothing
    dsimp only
    split
    next next _ =>
      refine whole (.inl ?_)
      rw [(showSlot_shows pl sc rt next).1]
      nofun
    · rw [hshowing]
      exact nothing nofun

end

/-! ### Every place judged again -/

theorem messageRefs_nodup : messageRefs.Nodup := by
  refine List.Nodup.append ((List.nodup_finRange 192).map fun _ _ => MsgZone.zone.inj)
    ((List.nodup_finRange 16).map fun _ _ => MsgZone.synthetic.inj) fun ref hz hs => ?_
  obtain ⟨z, -, rfl⟩ := List.mem_map.mp hz
  obtain ⟨p, -, hp⟩ := List.mem_map.mp hs
  cases hp

theorem mem_messageRefs (ref : MsgZone) : ref ∈ messageRefs := by
  cases ref with
  | zone z => exact List.mem_append_left _ (List.mem_map_of_mem (List.mem_finRange z))
  | synthetic p => exact List.mem_append_right _ (List.mem_map_of_mem (List.mem_finRange p))

theorem mem_liveMessages {d : Display} {ref : MsgZone} :
    ref ∈ d.liveMessages ↔ (d.messageRuntime? ref).isSome = true :=
  List.mem_filter.trans (and_iff_right (mem_messageRefs ref))

/-- What a change of every place leaves of the runtime of one. -/
def messageAfter (f : MessagePlace → Scene → MessageRuntime → MessageRuntime × Mark) (sc : Scene) (phase : Phase)
    (ref : MsgZone) (rt? : Option MessageRuntime) : Option MessageRuntime :=
  rt?.map fun rt =>
    match messagePlace? sc phase ref with
    | some pl => (f pl sc rt).1
    | none => rt

/-- The lines of a panel that a change of a place marks (R85, R101). -/
def MessageMarked (f : MessagePlace → Scene → MessageRuntime → MessageRuntime × Mark) (sc : Scene)
    (views : Vec (Option PanelView) 16) (phase : Phase) (ref : MsgZone) (rt? : Option MessageRuntime) (q : Fin 16) (y : Nat) :
    Prop :=
  ∃ pl rt, messagePlace? sc phase ref = some pl ∧ rt? = some rt ∧ q = pl.panel ∧
    (pl.zone = none ∨ views.get pl.panel = some .normal) ∧
    y ∈ pl.markLines (sc.bank.font (pl.shownFont sc rt.showing)).height (f pl sc rt).2

theorem onMessage_local (f : MessagePlace → Scene → MessageRuntime → MessageRuntime × Mark) (sc : Scene) :
    ActsLocally id Display.messageRuntime? (fun d ref => onMessage ref f sc d) (messageAfter f sc) (MessageMarked f sc)
      (fun _ => True) where
  views d ref := onMessage_views ref f sc d
  phase d ref := (onMessage_changes ref f sc d).phase_eq (by decide)
  reads d ref k _ := by
    unfold messageAfter
    dsimp only [id]
    cases hpl : messagePlace? sc d.seq.phase ref with
    | none =>
      rw [onMessage_none ref f sc (.inl hpl)]
      dsimp only
      rw [Option.map_id', ite_self]
    | some pl =>
      cases hrt : d.messageRuntime? ref with
      | none =>
        rw [onMessage_none ref f sc (.inr hrt)]
        split
        next heq => rw [← heq, hrt]; rfl
        · rfl
      | some rt =>
        rw [onMessage_some ref f sc hpl hrt, messageRuntime?_setMessageRuntime, messageRuntime?_markPlace]
        split
        next heq => rw [← heq, hrt]; rfl
        · rfl
  marks d ref q y _ := by
    unfold MessageMarked
    dsimp only [id]
    cases hpl : messagePlace? sc d.seq.phase ref with
    | none =>
      rw [onMessage_none ref f sc (.inl hpl)]
      exact (or_iff_left fun ⟨_, _, h, _⟩ => nomatch h).symm
    | some pl =>
      cases hrt : d.messageRuntime? ref with
      | none =>
        rw [onMessage_none ref f sc (.inr hrt)]
        exact (or_iff_left fun ⟨_, _, _, h, _⟩ => nomatch h).symm
      | some rt =>
        rw [onMessage_some ref f sc hpl hrt, setMessageRuntime_lines, mem_markPlace]
        refine or_congr_right ⟨?_, ?_⟩
        · rintro ⟨heq, htaken, hy, -⟩
          exact ⟨pl, rt, rfl, rfl, heq, htaken, hy⟩
        · rintro ⟨_, _, hpl', hrt', heq, htaken, hy⟩
          cases hpl'
          cases hrt'
          exact ⟨heq, htaken, hy, lt_height_of_mem_markLines hy⟩

/-- Every message place that has a runtime changed, in their order. -/
def changeMessages (f : MessagePlace → Scene → MessageRuntime → MessageRuntime × Mark) (sc : Scene) (d : Display) : Display :=
  d.liveMessages.foldl (fun d ref => onMessage ref f sc d) d

section
variable {f : MessagePlace → Scene → MessageRuntime → MessageRuntime × Mark} {sc : Scene}

theorem changeMessages_changes (f : MessagePlace → Scene → MessageRuntime → MessageRuntime × Mark) (sc : Scene)
    (d : Display) : DispChanges [.runtimes, .synthetic, .dirty] d (changeMessages f sc d) :=
  DispChanges.foldl (fun d ref => onMessage_changes ref f sc d) _ d

theorem changeMessages_drawn (f : MessagePlace → Scene → MessageRuntime → MessageRuntime × Mark) (sc : Scene) (d : Display) :
    Drawn sc.panel d (changeMessages f sc d) :=
  Drawn.foldl (fun d ref _ => onMessage_drawn sc ref f d) d

theorem changeMessages_runtime (d : Display) (ref : MsgZone) :
    (changeMessages f sc d).messageRuntime? ref = messageAfter f sc d.seq.phase ref (d.messageRuntime? ref) := by
  by_cases hlive : ref ∈ d.liveMessages
  · exact (onMessage_local f sc).foldl_reads (fun _ _ => trivial) (by rw [List.map_id]; exact messageRefs_nodup.filter _) hlive d
  · have hrt : d.messageRuntime? ref = none := by
      rw [mem_liveMessages] at hlive
      simpa using hlive
    unfold changeMessages
    rw [(onMessage_local f sc).foldl_other (fun _ _ => trivial) (fun other hother (heq : other = ref) => hlive (heq ▸ hother)) d, hrt]
    rfl

theorem mem_changeMessages (d : Display) (q : Fin 16) (y : Nat) :
    y ∈ (changeMessages f sc d).lines.dirty.get q ↔ y ∈ d.lines.dirty.get q ∨
      ∃ ref, MessageMarked f sc d.seq.views d.seq.phase ref (d.messageRuntime? ref) q y := by
  unfold changeMessages
  rw [(onMessage_local f sc).foldl_marks (fun _ _ => trivial) (by rw [List.map_id]; exact messageRefs_nodup.filter _)]
  refine or_congr_right (exists_congr fun ref => and_iff_right_of_imp fun hmarked => ?_)
  obtain ⟨pl, rt, -, hrt, -⟩ := hmarked
  rw [mem_liveMessages]
  exact Option.isSome_iff_exists.mpr ⟨rt, hrt⟩

/-- A zone that shows no message keeps its runtime. -/
theorem onMessage_otherKind {d : Display} {ref : MsgZone} {z : Nat}
    (hz : ∀ pl, ∀ w : Fin 192, w.val = z → messagePlace? sc d.seq.phase (.zone w) ≠ some pl) :
    (onMessage ref f sc d).seq.runtimes.find z = d.seq.runtimes.find z := by
  cases hpl : messagePlace? sc d.seq.phase ref with
  | none => rw [onMessage_none ref f sc (.inl hpl)]
  | some pl =>
    cases hrt : d.messageRuntime? ref with
    | none => rw [onMessage_none ref f sc (.inr hrt)]
    | some rt =>
      rw [onMessage_some ref f sc hpl hrt]
      cases ref with
      | zone w =>
        refine (setRuntime_find _ _ _ _).trans ((if_neg fun heq => hz pl w heq hpl).trans ?_)
        rw [markPlace_seq]
      | synthetic p => exact congrArg (fun seq => seq.runtimes.find z) (markPlace_seq _ _ _)

theorem changeMessages_otherKind {d : Display} {z : Nat}
    (hz : ∀ pl, ∀ w : Fin 192, w.val = z → messagePlace? sc d.seq.phase (.zone w) ≠ some pl) :
    (changeMessages f sc d).seq.runtimes.find z = d.seq.runtimes.find z := by
  unfold changeMessages
  refine (List.foldlRecOn _ _ (motive := fun e : Display => e.seq.runtimes.find z = d.seq.runtimes.find z ∧
    e.seq.phase = d.seq.phase) ⟨rfl, rfl⟩ fun e he ref _ => ⟨?_, ?_⟩).1
  · rw [onMessage_otherKind (f := f) (d := e) fun pl w hw => he.2.symm ▸ hz pl w hw, he.1]
  · exact ((onMessage_changes ref f sc e).phase_eq (by decide)).trans he.2

end

/-- A zone record of another kind makes no message place. -/
theorem messagePlace?_ne_of_kind {sc : Scene} (hwf : sc.bank.zones.wf) {phase : Phase} {z : Nat} {p : Fin 16} {row : PanelRow}
    {zone : Zone} (hz : (z, p, row, zone) ∈ sc.zones)
    (hkind : ∀ floor interval dwell idle, zone.kind ≠ .message floor interval dwell idle) (pl : MessagePlace) (w : Fin 192)
    (hw : w.val = z) : messagePlace? sc phase (.zone w) ≠ some pl := by
  have hzone : sc.zone w.val = some (p, row, zone) := hw ▸ zone_of_mem_zones hwf hz
  unfold messagePlace?
  dsimp only
  rw [hzone]
  unfold zonePlace?
  dsimp only
  split
  next hmessage => exact absurd hmessage (hkind _ _ _ _)
  · nofun

/-! ### The change handed on -/

theorem slotChange_eq (i : Fin 8) (newText : Bool) (sc : Scene) (d : Display) :
    slotChange i newText sc d = rechooseViews sc (changeMessages (fun pl => pl.rejudge i newText) sc d) := rfl

/-- A place reads of a scene the bank alone. -/
theorem messagePlace?_congr {sc sc' : Scene} (hbank : sc'.bank = sc.bank) (phase : Phase) (ref : MsgZone) :
    messagePlace? sc' phase ref = messagePlace? sc phase ref := by
  have hpanel (p : Fin 16) : sc'.panel p = sc.panel p := congrArg (fun b => b.panels.find p.val) hbank
  unfold messagePlace? Scene.zone
  simp only [hbank, hpanel]

/-- The panel of a place with no zone is that of its synthetic reference, and its group the EMERGENCY slots. -/
theorem messagePlace?_synthetic {sc : Scene} {phase : Phase} {ref : MsgZone} {pl : MessagePlace}
    (hpl : messagePlace? sc phase ref = some pl) (hzone : pl.zone = none) :
    ref = .synthetic pl.panel ∧ pl.floor = .emergency := by
  cases ref with
  | zone w =>
    unfold messagePlace? at hpl
    dsimp only at hpl
    split at hpl
    · unfold zonePlace? at hpl
      split at hpl
      · cases hpl
        cases hzone
      · cases hpl
    · cases hpl
  | synthetic p =>
    obtain ⟨row, -, rfl⟩ := Option.map_eq_some_iff.mp hpl
    exact ⟨rfl, rfl⟩

/-- A message zone's number and panel. -/
theorem messagePlace?_zone {sc : Scene} {phase : Phase} {w : Fin 192} {pl : MessagePlace}
    (hpl : messagePlace? sc phase (.zone w) = some pl) :
    ∃ zone floor interval dwell idle, (w.val, pl.panel, pl.row, zone) ∈ sc.zones ∧
      zone.kind = .message floor interval dwell idle := by
  unfold messagePlace? at hpl
  dsimp only at hpl
  split at hpl
  next p row zone hzone =>
    unfold zonePlace? at hpl
    split at hpl
    next hkind =>
      cases hpl
      exact ⟨zone, _, _, _, _, mem_zones_of_zone hzone, hkind⟩
    · cases hpl
  · cases hpl

theorem messageRuntime?_congr {d e : Display} {ref : MsgZone}
    (hzone : ∀ w : Fin 192, ref = .zone w → e.seq.runtimes.find w.val = d.seq.runtimes.find w.val)
    (hsynthetic : ∀ p, ref = .synthetic p → e.seq.synthetic.get p = d.seq.synthetic.get p) :
    e.messageRuntime? ref = d.messageRuntime? ref := by
  unfold Display.messageRuntime?
  cases ref with
  | zone w => simp only [hzone w rfl]
  | synthetic p => exact hsynthetic p rfl

/-- Choosing the views again leaves a MESSAGE zone's runtime, and the synthetic zone's of a panel whose view stays. -/
theorem rechooseViews_message {sc : Scene} (hwf : sc.bank.zones.wf) {d : Display} {phase : Phase} {ref : MsgZone}
    {pl : MessagePlace} (hpl : messagePlace? sc phase ref = some pl)
    (hview : pl.zone = none → (rechooseViews sc d).seq.views.get pl.panel = d.seq.views.get pl.panel) :
    (rechooseViews sc d).messageRuntime? ref = d.messageRuntime? ref := by
  refine messageRuntime?_congr (fun w href => ?_) fun p href => ?_
  · subst href
    obtain ⟨zone, _, _, _, _, hz, hkind⟩ := messagePlace?_zone hpl
    rw [rechooseViews_runtime hwf d hz, if_neg]
    rintro ⟨-, hpaged⟩
    unfold pagedZone at hpaged
    rw [hkind] at hpaged
    cases hpaged
  · subst href
    obtain ⟨row, hrow, rfl⟩ := Option.map_eq_some_iff.mp hpl
    exact (rechooseViews_same (hview rfl)).synthetic

section
variable {i : Fin 8} {newText : Bool} {s t : State} (h : t.disp = slotChange i newText t.scene s.disp)
  (hbank : t.tables.activeBank = s.tables.activeBank)
include h hbank

/-- A synthetic zone of a panel that stays in EMERGENCY has a slot to show. -/
theorem topGroup_of_emergency {phase : Phase} {ref : MsgZone} {pl : MessagePlace}
    (hpl : messagePlace? s.scene phase ref = some pl) (hzone : pl.zone = none)
    (hview : t.disp.seq.views.get pl.panel = some .emergency) : topGroup t.scene.slots pl.panel pl.floor ≠ [] := by
  have hrow : t.scene.panel pl.panel = some pl.row := by
    rw [panel_of_bank hbank]
    exact messagePlace?_panel s.scene hpl
  obtain ⟨v, hv, hchosen⟩ := viewsChosen_of_rechosen (h.trans (slotChange_eq i newText _ _)) _ _ hrow
  rw [hview] at hv
  cases hv
  have hemergency : Emergency t.scene pl.panel := by
    rcases hchosen with ⟨hemergency, -⟩ | ⟨-, ⟨-, hv⟩ | ⟨-, hv⟩ | ⟨-, -, -, hv⟩ | ⟨-, -, hv⟩⟩
    · exact hemergency
    all_goals cases hv
  obtain ⟨-, hfloor⟩ := messagePlace?_synthetic hpl hzone
  have hsome := emergencyFor_iff.mpr hemergency
  unfold emergencyFor at hsome
  rw [hfloor]
  intro hempty
  rw [hempty] at hsome
  cases hsome

/-- What a place shows once the change has been handed on, where it stands before and after. -/
theorem slotChange_runtime (hwf : s.tables.activeBank.zones.wf) {ref : MsgZone} {pl : MessagePlace} {rt : MessageRuntime}
    (hpl : messagePlace? s.scene s.disp.seq.phase ref = some pl) (hrt : s.disp.messageRuntime? ref = some rt)
    (hview : pl.zone = none → t.disp.seq.views.get pl.panel = s.disp.seq.views.get pl.panel) :
    t.disp.messageRuntime? ref = some (pl.rejudge i newText t.scene rt).1 := by
  have hpl' := (messagePlace?_congr (sc := s.scene) (sc' := t.scene) hbank s.disp.seq.phase ref).trans hpl
  have hjudged := changeMessages_runtime (f := fun pl => pl.rejudge i newText) (sc := t.scene) s.disp ref
  unfold messageAfter at hjudged
  rw [hrt, Option.map_some, hpl'] at hjudged
  rw [h, slotChange_eq] at hview ⊢
  have hwf' : t.tables.activeBank.zones.wf := by rw [hbank]; exact hwf
  rw [rechooseViews_message (sc := t.scene) hwf' hpl', hjudged]
  intro hzone
  rw [hview hzone, (changeMessages_changes _ _ _).views_eq (by decide)]

theorem slotChange_judged (hwf : s.tables.activeBank.zones.wf) {ref : MsgZone} {pl : MessagePlace} {rt : MessageRuntime}
    (hpl : messagePlace? s.scene s.disp.seq.phase ref = some pl) (hrt : s.disp.messageRuntime? ref = some rt)
    (hview : pl.zone = none →
      s.disp.seq.views.get pl.panel = some .emergency ∧ t.disp.seq.views.get pl.panel = some .emergency) :
    PlaceJudged i newText s t ref pl rt := by
  have hfull (hzone : pl.zone = none) := topGroup_of_emergency h hbank hpl hzone (hview hzone).2
  refine ⟨_, slotChange_runtime h hbank hwf hpl hrt fun hzone => (hview hzone).2.trans (hview hzone).1.symm,
    rejudge_rejudged pl t.scene i newText rt hfull, fun hmoved htaken y hy => ?_⟩
  rw [h, slotChange_eq]
  refine (rechooseViews_drawn t.scene _).mem ((mem_changeMessages _ _ _).mpr (.inr ⟨ref, pl, rt, ?_, hrt, rfl, htaken,
    (rejudge_marks pl t.scene i newText rt hfull _ y).mpr ⟨hy, hmoved⟩⟩))
  exact (messagePlace?_congr (sc := s.scene) (sc' := t.scene) hbank _ ref).trans hpl

/-- The lines marked on a panel whose view stays: those of its message places that move, or whose text is new. -/
theorem mem_slotChange (hwf : s.tables.activeBank.zones.wf) {p : Fin 16}
    (hview : t.disp.seq.views.get p = s.disp.seq.views.get p)
    (hsynthetic : s.disp.seq.synthetic.get p ≠ none → s.disp.seq.views.get p = some .emergency) (y : Nat) :
    y ∈ t.disp.lines.dirty.get p ↔ y ∈ s.disp.lines.dirty.get p ∨ JudgingMarks i newText s t p y := by
  have hplace (ref : MsgZone) : messagePlace? t.scene s.disp.seq.phase ref = messagePlace? s.scene s.disp.seq.phase ref :=
    messagePlace?_congr hbank _ ref
  have hdirty : t.disp.lines.dirty.get p =
      (changeMessages (fun pl => pl.rejudge i newText) t.scene s.disp).lines.dirty.get p := by
    rw [h, slotChange_eq] at hview ⊢
    refine (rechooseViews_same ?_).dirty
    rw [hview, (changeMessages_changes _ _ _).views_eq (by decide)]
  rw [hdirty, mem_changeMessages]
  unfold MessageMarked JudgingMarks
  refine or_congr_right (exists_congr fun ref => exists_congr fun pl => exists_congr fun rt => ?_)
  rw [hplace]
  refine ⟨?_, ?_⟩
  · rintro ⟨hpl, hrt, rfl, htaken, hy⟩
    have hfull (hzone : pl.zone = none) : topGroup t.scene.slots pl.panel pl.floor ≠ [] := by
      refine topGroup_of_emergency h hbank hpl hzone (hview.trans (hsynthetic fun hnone => ?_))
      rw [(messagePlace?_synthetic hpl hzone).1] at hrt
      exact Option.some_ne_none _ (hrt.symm.trans hnone)
    obtain ⟨hlines, hmoved⟩ := (rejudge_marks pl t.scene i newText rt hfull _ y).mp hy
    refine ⟨hpl, rfl, hrt, htaken, hlines, ?_⟩
    rw [slotChange_runtime h hbank hwf hpl hrt fun _ => hview]
    exact hmoved.imp_left fun hne heq => hne (Option.some.inj heq)
  · rintro ⟨hpl, rfl, hrt, htaken, hlines, hmoved⟩
    have hfull (hzone : pl.zone = none) : topGroup t.scene.slots pl.panel pl.floor ≠ [] := by
      refine topGroup_of_emergency h hbank hpl hzone (hview.trans (hsynthetic fun hnone => ?_))
      rw [(messagePlace?_synthetic hpl hzone).1] at hrt
      exact Option.some_ne_none _ (hrt.symm.trans hnone)
    rw [slotChange_runtime h hbank hwf hpl hrt fun _ => hview] at hmoved
    exact ⟨hpl, hrt, rfl, htaken, (rejudge_marks pl t.scene i newText rt hfull _ y).mpr
      ⟨hlines, hmoved.imp_left fun hne heq => hne (congrArg some heq)⟩⟩

/-- A panel whose view changes does as R121 says, whatever the judging has marked on it. -/
theorem slotChange_viewChanged {p : Fin 16} {row : PanelRow} (hrow : s.scene.panel p = some row)
    (hview : t.disp.seq.views.get p ≠ s.disp.seq.views.get p) : ViewChanged p row s t := by
  have hrow' : t.scene.panel p = some row := (congrFun (panel_of_bank hbank) p).trans hrow
  have judged := changeMessages_changes (fun pl => pl.rejudge i newText) t.scene s.disp
  have drawn := changeMessages_drawn (fun pl => pl.rejudge i newText) t.scene s.disp
  rw [slotChange_eq] at h
  generalize changeMessages (fun pl => pl.rejudge i newText) t.scene s.disp = e at h judged drawn
  have hviews : e.seq.views = s.disp.seq.views := judged.views_eq (by decide)
  have hphase : t.disp.seq.phase = e.seq.phase := by rw [h, rechooseViews_phase]
  obtain ⟨hshown, hsynthetic, hdirty, -, hrecord⟩ : Entered t.scene p row (chosenView t.scene p row) e t.disp := by
    rw [h] at hview ⊢
    rw [← hviews] at hview
    exact rechooseViews_entered hrow' hview
  refine ⟨?_, fun y => ?_, fun hemergency => ?_, fun hemergency => ?_⟩
  · rw [hrecord, hshown, judged.panels_eq (by decide), hviews]
    simp [commandAfter]
  · obtain ⟨ys, hys, hbelow⟩ := drawn.marks p
    rw [hdirty, mem_addLines, hys, mem_addLines]
    simp only [List.mem_filter, List.mem_range, decide_eq_true_eq, and_self]
    refine ⟨fun hy => hy.elim .inl fun hy => hy.elim (fun hy => ?_) .inr, fun hy => hy.imp_right .inr⟩
    obtain ⟨row', hrow'', hlt⟩ := hbelow y hy
    rw [hrow'] at hrow''
    cases hrow''
    exact .inl hlt
  · rw [hshown, Option.some.injEq] at hemergency
    refine ⟨_, by rw [hsynthetic, if_pos hemergency], ?_⟩
    rw [hphase]
    exact start_starts _ _
  · rw [hshown, ne_eq, Option.some.injEq] at hemergency
    rw [hsynthetic, if_neg hemergency]

/-- A zone that shows no message does as in any choice of the views (R94). -/
theorem slotChange_paging (hwf : s.tables.activeBank.zones.wf) {z : Nat} {p : Fin 16} {row : PanelRow} {zone : Zone}
    (hz : (z, p, row, zone) ∈ s.scene.zones)
    (hkind : ∀ floor interval dwell idle, zone.kind ≠ .message floor interval dwell idle) :
    PagingRestarts s t z p row zone := by
  have hwf' : t.tables.activeBank.zones.wf := by rw [hbank]; exact hwf
  have hz' : (z, p, row, zone) ∈ t.scene.zones := (zones_of_bank (sc := s.scene) (sc' := t.scene) hbank).symm ▸ hz
  have judged := changeMessages_changes (fun pl => pl.rejudge i newText) t.scene s.disp
  have hkept : (changeMessages (fun pl => pl.rejudge i newText) t.scene s.disp).seq.runtimes.find z =
      s.disp.seq.runtimes.find z := changeMessages_otherKind (messagePlace?_ne_of_kind hwf' hz' hkind)
  rw [slotChange_eq] at h
  generalize changeMessages (fun pl => pl.rejudge i newText) t.scene s.disp = e at h judged hkept
  have hfind := rechooseViews_runtime hwf' e hz'
  have hphase : t.disp.seq.phase = e.seq.phase := by rw [h, rechooseViews_phase]
  rw [← h, judged.views_eq (by decide), hkept] at hfind
  unfold PagingRestarts
  dsimp only
  rw [← pagedZone_iff]
  refine ⟨fun hn => ?_, fun hn => ?_⟩
  · rw [hfind, if_pos hn, hphase]
    exact startRuntime_starts _ _ _ _ _
  · rw [hfind, if_neg hn]

/-- A change of a slot is handed on as R99, R106, R120 and R121 have it. -/
theorem slotHandedOn_of_slotChange : SlotHandedOn i newText s t := by
  refine ⟨viewsChosen_of_rechosen (h.trans (slotChange_eq i newText _ _)),
    fun p row hrow hview => slotChange_viewChanged h hbank hrow hview,
    fun p hview => ⟨?_, ?_, fun hsynthetic hwf y => mem_slotChange h hbank hwf hview hsynthetic y⟩,
    fun hwf => ⟨fun ref pl rt hpl hrt hstays => slotChange_judged h hbank hwf hpl hrt hstays,
      fun z p row zone hz hkind => slotChange_paging h hbank hwf hz hkind⟩⟩
  all_goals
    have judged := changeMessages_changes (fun pl => pl.rejudge i newText) t.scene s.disp
    have same : SamePanel p (changeMessages (fun pl => pl.rejudge i newText) t.scene s.disp) t.disp := by
      rw [h, slotChange_eq] at hview ⊢
      exact rechooseViews_same (by rw [hview, judged.views_eq (by decide)])
  · rw [same.record, judged.panels_eq (by decide)]
  · intro hnone
    have hlive := foldl_onMessage_synthetic (fun pl => pl.rejudge i newText) t.scene s.disp.liveMessages s.disp p
    rw [same.synthetic]
    rw [hnone] at hlive
    exact Option.not_isSome_iff_eq_none.mp fun hsome => nomatch hlive.symm.trans hsome

end

end Sys2Proof.Machine

/-! The message slots: MESSAGE, MESSAGE_END and the end of a duration (R106 to R110). -/

namespace Sys2Proof.Machine

open Claims

theorem setSlot_slot (s : State) (i : Fin 8) (slot : Slot) (newText : Bool) (j : Fin 8) :
    (s.setSlot i slot newText).slots.get j = if i = j then slot else s.slots.get j := Vec.get_set _ _ _ _

/-- A slot changed: its neighbours stay, and the change is handed on. The state in which it changes may differ from the
one looked back on outside the slots, the tables and the display. -/
theorem setSlot_handedOn {s u : State} (hdisp : u.disp = s.disp) (hbank : u.tables.activeBank = s.tables.activeBank)
    (hslots : u.slots = s.slots) (i : Fin 8) (slot : Slot) (newText : Bool) :
    (u.setSlot i slot newText).slots.get i = slot ∧ OtherSlots i s (u.setSlot i slot newText) ∧
      SlotHandedOn i newText s (u.setSlot i slot newText) := by
  refine ⟨by rw [setSlot_slot, if_pos rfl], fun j hj => by rw [setSlot_slot, if_neg (Ne.symm hj), hslots], ?_⟩
  refine slotHandedOn_of_slotChange ?_ hbank
  rw [← hdisp]
  rfl

/-! ### MESSAGE (R107, R108) -/

theorem priorityOf?_rank {n : Nat} (h : n ≤ 2) : ∃ priority, priorityOf? n = some priority ∧ priority.rank = n := by
  rcases n with _ | _ | _ | n
  · exact ⟨.normal, rfl, rfl⟩
  · exact ⟨.service, rfl, rfl⟩
  · exact ⟨.emergency, rfl, rfl⟩
  · omega

theorem checkMessage_bad {b : MessageBody} (slots : Vec Slot 8)
    (h : 7 < b.slot ∨ 2 < b.priority ∨ 3 < b.font ∨ b.count = 0 ∨ 120 < b.count) :
    checkMessage b slots = .error .badField := by
  unfold checkMessage
  split
  next hslot hpriority hfont hcount =>
    have hslot' := finOf?_eq_some.mp hslot
    obtain ⟨⟨-, hfont'⟩, -⟩ := ranged_eq_some_iff.mp hfont
    obtain ⟨⟨hcount', hcount''⟩, -⟩ := ranged_eq_some_iff.mp hcount
    have hpriority' : ¬2 < b.priority := fun hlt => by
      obtain ⟨n, hn⟩ := Nat.exists_eq_add_of_le hlt
      rw [hn, Nat.add_comm] at hpriority
      cases hpriority
    omega
  · rfl

/-- A MESSAGE whose fields are in range is judged by its length, its codes and its slot, in that order. -/
theorem checkMessage_good {b : MessageBody} {i : Fin 8} {priority : Priority} (slots : Vec Slot 8) (hslot : b.slot = i.val)
    (hpriority : priorityOf? b.priority = some priority) (hfont : b.font ≤ 3) (hlow : 1 ≤ b.count) (hhigh : b.count ≤ 120) :
    checkMessage b slots =
      if b.tail.length ≠ 2 * b.count then .error .badLength
      else if (wordsOf b.tail).any fun c => decide (511 < c) then .error .badField
      else if (slots.get i).isLocked then .error .slotLocked
      else .ok (i, ⟨priority, b.mask, b.font, .codes (wordsOf b.tail)⟩) := by
  simp only [checkMessage, finOf?_eq_some.mpr hslot.symm, hpriority, ranged_eq_some ⟨Nat.zero_le _, hfont⟩,
    ranged_eq_some ⟨hlow, hhigh⟩]

theorem takeMessage_refused {b : MessageBody} {s : State} {reason : Reason} (h : checkMessage b s.slots = .error reason) :
    takeMessage b s = s.refuse 0x20 reason := by
  unfold takeMessage
  rw [h]
  rfl

/-- A MESSAGE that passes every check fills its slot. -/
theorem takeMessage_taken {b : MessageBody} {i : Fin 8} {s : State} (h : MessageTaken b i s) :
    ∃ priority : Priority, priority.rank = b.priority ∧
      takeMessage b s = s.setSlot i (.active ⟨priority, b.mask, b.font, .codes (wordsOf b.tail)⟩
        (if b.duration = 0 then none else some b.duration)) true := by
  obtain ⟨hslot, hpriority, hfont, hlow, hhigh, hlength, hcodes, hopen⟩ := h
  obtain ⟨priority, hp, hrank⟩ := priorityOf?_rank hpriority
  refine ⟨priority, hrank, ?_⟩
  have hclear : ¬((wordsOf b.tail).any fun c => decide (511 < c)) = true := by
    simpa using hcodes
  unfold takeMessage
  rw [checkMessage_good s.slots hslot hp hfont hlow hhigh, if_neg (not_not.mpr hlength), if_neg hclear, if_neg (by simp [hopen])]

/-! ### MESSAGE_END and the end of a duration (R109, R110) -/

theorem takeMessageEnd_active {i : Fin 8} {r : MessageRecord} {left : Option Nat} {s : State}
    (h : s.slots.get i = .active r left) : takeMessageEnd i.val s = s.setSlot i .free false := by
  simp only [takeMessageEnd, finOf?_val, h]

theorem tickSlot_ends {i : Fin 8} {r : MessageRecord} {left : Nat} {s : State} (h : s.slots.get i = .active r (some left))
    (hleft : left ≤ 1) : tickSlot i s = s.setSlot i .free false := by
  simp only [tickSlot, h, if_pos hleft]

theorem execMessageDurationExpiry_ends {i : Fin 8} {r : MessageRecord} {left : Nat} {s : State}
    (h : s.slots.get i = .active r (some left)) (hleft : left ≤ 1) :
    exec (.messageDurationExpiry i) s = .next (s.setSlot i .free false) := by
  have hdue : (s.slots.get i).expiryDue = true := by
    rw [h]
    exact decide_eq_true hleft
  exact congrArg Host.Outcome.next ((if_pos hdue).trans (tickSlot_ends h hleft))

/-- Settles O30: each slot that changes does so by `setSlot_handedOn`. -/
theorem messagesFillAndFreeTheirSlots : Obligations.MessagesFillAndFreeTheirSlots := by
  refine ⟨fun body s => ⟨fun hbad => ?_, fun i hslot hpriority hfont hlow hhigh => ?_⟩, fun i r left s h hleft => ?_,
    fun i r left s h => ?_, fun i s h => ?_, fun i r s h => ?_, fun slot s hslot => ?_⟩
  · refine ⟨_, rfl, ?_⟩
    rw [takeMessage_refused (checkMessage_bad s.slots hbad)]
    exact refuse_refusedOnly s _ _
  · obtain ⟨priority, hp, -⟩ := priorityOf?_rank hpriority
    have hcheck := checkMessage_good s.slots hslot hp hfont hlow hhigh
    refine ⟨fun hlength => ⟨_, rfl, ?_⟩, fun hlength hcodes => ⟨_, rfl, ?_⟩, fun hlength hcodes hlocked => ⟨_, rfl, ?_⟩,
      fun htaken => ?_⟩
    · rw [if_pos hlength] at hcheck
      rw [takeMessage_refused hcheck]
      exact refuse_refusedOnly s _ _
    · rw [if_neg (not_not.mpr hlength), if_pos (by simpa using hcodes)] at hcheck
      rw [takeMessage_refused hcheck]
      exact refuse_refusedOnly s _ _
    · rw [if_neg (not_not.mpr hlength), if_neg (by simpa using hcodes), if_pos hlocked] at hcheck
      rw [takeMessage_refused hcheck]
      exact refuse_refusedOnly s _ _
    · obtain ⟨priority, hrank, htake⟩ := takeMessage_taken htaken
      obtain ⟨hfilled, hothers, hhanded⟩ := setSlot_handedOn (s := s) (u := s) rfl rfl rfl i
        (.active ⟨priority, body.mask, body.font, .codes (wordsOf body.tail)⟩
          (if body.duration = 0 then none else some body.duration)) true
      exact ⟨_, priority, congrArg Host.Outcome.next htake, hrank, hfilled, hothers, hhanded, setSlot_changes s i _ true⟩
  · obtain ⟨hfreed, hothers, hhanded⟩ := setSlot_handedOn (s := s) (u := s) rfl rfl rfl i .free false
    exact ⟨_, execMessageDurationExpiry_ends h hleft, hfreed, hothers, hhanded, setSlot_changes s i _ false⟩
  · obtain ⟨hfreed, hothers, hhanded⟩ := setSlot_handedOn (s := s) (u := s) rfl rfl rfl i .free false
    exact ⟨_, congrArg Host.Outcome.next (takeMessageEnd_active h), hfreed, hothers, hhanded, setSlot_changes s i _ false⟩
  · refine congrArg Host.Outcome.next ?_
    simp only [takeMessageEnd, finOf?_val, h]
  · refine ⟨s.refuse 0x21 .slotLocked, congrArg Host.Outcome.next ?_, refuse_refusedOnly s _ _⟩
    simp only [takeMessageEnd, finOf?_val, h]
    rfl
  · refine ⟨s.refuse 0x21 .badField, congrArg Host.Outcome.next ?_, refuse_refusedOnly s _ _⟩
    simp only [takeMessageEnd, finOf?_eq_none.mpr (show 8 ≤ slot from hslot)]
    rfl

end Sys2Proof.Machine

/-! The contacts and their alerts (R112 to R115, R117), and every change of a slot handed on (R99). -/

namespace Sys2Proof.Machine

open Claims

/-! ### One contact changed -/

theorem contactIsActive_iff (s : State) (n : Fin 4) :
    s.contactIsActive n = true ↔ ActiveAt s n (s.contacts.get n).filtered := by
  unfold State.contactIsActive ActiveAt contactActive
  cases (s.settings.contacts.get n).polarity <;> simp

theorem onContact_get (s : State) (n m : Fin 4) (f : Contact → Contact) :
    (s.onContact n f).contacts.get m = if n = m then f (s.contacts.get m) else s.contacts.get m := Vec.get_update _ _ _ _

theorem onContact_self (s : State) (n : Fin 4) (f : Contact → Contact) :
    (s.onContact n f).contacts.get n = f (s.contacts.get n) := Vec.get_update_self _ _ _

theorem onContact_others (s : State) (n : Fin 4) (f : Contact → Contact) : OtherContacts n s (s.onContact n f) := fun m hm => by
  rw [onContact_get, if_neg (Ne.symm hm)]

theorem setSlot_contacts (s : State) (i : Fin 8) (slot : Slot) (newText : Bool) :
    (s.setSlot i slot newText).contacts = s.contacts := rfl

/-- What the raising and the clearing of an alert read of the state looked back on: its slots, its active bank, its
display, and the mask and string of the contact. -/
structure AlertSame (n : Fin 4) (s u : State) : Prop where
  disp : u.disp = s.disp
  bank : u.tables.activeBank = s.tables.activeBank
  slots : u.slots = s.slots
  mask : (u.settings.contacts.get n).mask = (s.settings.contacts.get n).mask
  string : (u.settings.contacts.get n).alertString = (s.settings.contacts.get n).alertString

theorem AlertSame.refl (n : Fin 4) (s : State) : AlertSame n s s := ⟨rfl, rfl, rfl, rfl, rfl⟩

theorem AlertSame.onContact {n : Fin 4} {s u : State} (h : AlertSame n s u) (m : Fin 4) (f : Contact → Contact) :
    AlertSame n s (u.onContact m f) := ⟨h.disp, h.bank, h.slots, h.mask, h.string⟩

section
variable {n : Fin 4} {s u : State} (h : AlertSame n s u)
include h

theorem raiseAlert_raises : Raises n s (raiseAlert n u) := by
  obtain ⟨hlocked, hothers, hhanded⟩ := setSlot_handedOn (s := s)
    (u := u.onContact n fun c =>
      { c with latch := some ⟨(u.settings.contacts.get n).mask, (u.settings.contacts.get n).alertString⟩ })
    h.disp h.bank h.slots (contactSlot n)
    (.locked (alertRecord ⟨(u.settings.contacts.get n).mask, (u.settings.contacts.get n).alertString⟩)) true
  have hlatch : ((raiseAlert n u).contacts.get n).latch =
      some ⟨(u.settings.contacts.get n).mask, (u.settings.contacts.get n).alertString⟩ :=
    congrArg Contact.latch (onContact_self u n _)
  unfold Raises
  dsimp only
  rw [← h.mask, ← h.string]
  exact ⟨hlatch, hlocked, hothers, hhanded⟩

theorem clearAlert_frees : (clearAlert n u).slots.get (contactSlot n) = .free ∧ OtherSlots (contactSlot n) s (clearAlert n u) ∧
    SlotHandedOn (contactSlot n) false s (clearAlert n u) :=
  setSlot_handedOn (s := s) (u := u.onContact n fun c => { c with latch := none }) h.disp h.bank h.slots (contactSlot n)
    .free false

end

theorem raiseAlert_contact (n : Fin 4) (u : State) :
    (raiseAlert n u).contacts.get n = { u.contacts.get n with latch := ((raiseAlert n u).contacts.get n).latch } ∧
      OtherContacts n u (raiseAlert n u) := by
  have hself : (raiseAlert n u).contacts.get n =
      { u.contacts.get n with
        latch := some ⟨(u.settings.contacts.get n).mask, (u.settings.contacts.get n).alertString⟩ } := onContact_self u n _
  exact ⟨by rw [hself], onContact_others u n _⟩

theorem clearAlert_contact (n : Fin 4) (u : State) :
    (clearAlert n u).contacts.get n = { u.contacts.get n with latch := none } ∧ OtherContacts n u (clearAlert n u) :=
  ⟨onContact_self u n _, onContact_others u n _⟩

/-- The reason why a WATCHING contact raises its alert at once (R113). -/
def Judged (n : Fin 4) (u : State) : Prop :=
  (u.contacts.get n).state = .watching ∧ (u.contacts.get n).latch = none ∧ (u.settings.contacts.get n).mode = .level ∧
    ActiveAt u n (u.contacts.get n).filtered

theorem judged_iff (n : Fin 4) (u : State) :
    Judged n u ↔ (u.contacts.get n).state = .watching ∧ (u.contacts.get n).latch = none ∧
      (u.settings.contacts.get n).mode = .level ∧ u.contactIsActive n = true := by
  rw [contactIsActive_iff]
  exact Iff.rfl

theorem judgeLevel_judged {n : Fin 4} {u : State} (h : Judged n u) : judgeLevel n u = raiseAlert n u :=
  if_pos ((judged_iff n u).mp h)

theorem judgeLevel_quiet {n : Fin 4} {u : State} (h : ¬Judged n u) : judgeLevel n u = u :=
  if_neg (mt (judged_iff n u).mpr h)

/-- A contact judged by its level: its latch alone may change, with the alert raised, or nothing raised. -/
theorem judgeLevel_judges {n : Fin 4} {s u : State} (h : AlertSame n s u)
    (hlatch : (u.contacts.get n).latch = (s.contacts.get n).latch) :
    (judgeLevel n u).contacts.get n = { u.contacts.get n with latch := ((judgeLevel n u).contacts.get n).latch } ∧
      (Judged n u → Raises n s (judgeLevel n u)) ∧ (¬Judged n u → RaisesNothing n s (judgeLevel n u)) ∧
      OtherContacts n u (judgeLevel n u) := by
  by_cases hjudged : Judged n u
  · rw [judgeLevel_judged hjudged]
    obtain ⟨hcontact, hothers⟩ := raiseAlert_contact n u
    exact ⟨hcontact, fun _ => raiseAlert_raises h, fun hn => absurd hjudged hn, hothers⟩
  · rw [judgeLevel_quiet hjudged]
    exact ⟨rfl, fun hj => absurd hj hjudged, fun _ => ⟨hlatch, h.slots, h.disp⟩, fun _ _ => rfl⟩

/-! ### The filter (R112, R114) -/

/-- A contact with its filtered level become the raw one, its filter at rest (R112). -/
def filterPassed (n : Fin 4) (s : State) : State := s.onContact n fun c => { c with filtered := c.raw, filterTimer := none }

theorem filterPassed_active (n : Fin 4) (s : State) :
    (filterPassed n s).contactIsActive n = true ↔ ActiveAt s n (s.contacts.get n).raw := by
  rw [contactIsActive_iff, filterPassed, onContact_self]
  exact Iff.rfl

section
variable {n : Fin 4} {time : Nat} {s : State} (htimer : (s.contacts.get n).filterTimer = some time)
include htimer

theorem expireFilter_raises (hmoved : (s.contacts.get n).raw ≠ (s.contacts.get n).filtered)
    (h : (s.contacts.get n).state = .watching ∧ (s.contacts.get n).latch = none ∧ ActiveAt s n (s.contacts.get n).raw) :
    expireFilter n s = raiseAlert n (filterPassed n s) := by
  unfold expireFilter
  dsimp only
  rw [htimer]
  exact if_pos ⟨hmoved, h.1, h.2.1, (filterPassed_active n s).mpr h.2.2⟩

theorem expireFilter_quiet
    (h : ¬((s.contacts.get n).state = .watching ∧ (s.contacts.get n).latch = none ∧
      ActiveAt s n (s.contacts.get n).raw)) : expireFilter n s = filterPassed n s := by
  unfold expireFilter
  dsimp only
  rw [htimer]
  refine if_neg ?_
  rintro ⟨-, hstate, hlatch, hactive⟩
  exact h ⟨hstate, hlatch, (filterPassed_active n s).mp hactive⟩

end

/-- Settles O32. -/
theorem filteredLevelRaisesTheAlert : Obligations.FilteredLevelRaisesTheAlert := by
  refine ⟨fun n level s => ⟨_, rfl, onContact_self s n _, onContact_others s n _, onContact_changes s n _⟩,
    fun n time s htimer hmoved => ⟨expireFilter n s, rfl, ?_⟩⟩
  have hself : (filterPassed n s).contacts.get n =
      { s.contacts.get n with filtered := (s.contacts.get n).raw, filterTimer := none } := onContact_self s n _
  have hothers : OtherContacts n s (filterPassed n s) := onContact_others s n _
  have hframe := expireFilter_changes n s
  by_cases hraises : (s.contacts.get n).state = .watching ∧ (s.contacts.get n).latch = none ∧
      ActiveAt s n (s.contacts.get n).raw
  · rw [expireFilter_raises htimer hmoved hraises] at hframe ⊢
    obtain ⟨hcontact, hrest⟩ := raiseAlert_contact n (filterPassed n s)
    rw [hself] at hcontact
    exact ⟨hcontact, fun _ => raiseAlert_raises ((AlertSame.refl n s).onContact n _), fun hquiet => absurd hraises hquiet,
      fun m hm => (hrest m hm).trans (hothers m hm), hframe⟩
  · rw [expireFilter_quiet htimer hraises] at hframe ⊢
    exact ⟨by rw [hself], fun h => absurd h hraises, fun _ => ⟨by rw [hself], rfl, rfl⟩, hothers, hframe⟩

/-! ### Enable, mode and polarity (R113, R117) -/

/-- A contact's settings written, with the clamp noted: the state as its contact then looks at it. -/
theorem contactWritten (s : State) (n : Fin 4) (f : ContactSettings → ContactSettings) (v w : Nat)
    (hmask : ∀ c, (f c).mask = c.mask) (hstring : ∀ c, (f c).alertString = c.alertString) :
    AlertSame n s ((s.onContactSettings n f).noteClamp v w) ∧
      ((s.onContactSettings n f).noteClamp v w).contacts = s.contacts ∧
      ((s.onContactSettings n f).noteClamp v w).settings = { s.settings with contacts := s.settings.contacts.update n f } ∧
      ClampNoted v w s ((s.onContactSettings n f).noteClamp v w) := by
  obtain ⟨hsettings, hnoted, hframe⟩ :=
    setting_written s (fun st => { st with contacts := st.contacts.update n f }) v w
  have hget : (((s.onContactSettings n f).noteClamp v w).settings.contacts.get n) = f (s.settings.contacts.get n) := by
    rw [show ((s.onContactSettings n f).noteClamp v w).settings = _ from hsettings]
    exact Vec.get_update_self _ _ _
  refine ⟨⟨?_, congrArg TableStore.activeBank (hframe .tables (by decide)), hframe .slots (by decide), ?_, ?_⟩,
    hframe .contacts (by decide), hsettings, hnoted⟩
  · unfold State.noteClamp
    split <;> rfl
  · rw [hget, hmask]
  · rw [hget, hstring]

theorem clampChoice_eq (v : Nat) : clampChoice v = min v 1 := by
  unfold clampChoice
  split <;> omega

theorem clampChoice_pos {v : Nat} (h : v ≠ 0) : clampChoice v = 1 := if_neg h

/-- What stands after a setting of a contact has been judged: the setting, the clamp note and the frame. -/
theorem judgeLevel_keeps (n : Fin 4) (u : State) :
    (judgeLevel n u).settings = u.settings ∧ (judgeLevel n u).mgmt.flags = u.mgmt.flags :=
  ⟨judgeLevel_changes n u .settings (by decide), judgeLevel_changes n u .flags (by decide)⟩

theorem clearAlert_keeps (n : Fin 4) (u : State) :
    (clearAlert n u).settings = u.settings ∧ (clearAlert n u).mgmt.flags = u.mgmt.flags :=
  ⟨clearAlert_changes n u .settings (by decide), clearAlert_changes n u .flags (by decide)⟩

theorem settlingExpiry_judges (n : Fin 4) (time : Nat) (s : State) (htimer : (s.contacts.get n).settlingTimer = some time)
    (hlatch : (s.contacts.get n).latch = none) :
    ∃ t, exec (.settlingExpiry n) s = .next t ∧
      t.contacts.get n = { s.contacts.get n with
        state := .watching, settlingTimer := none, latch := (t.contacts.get n).latch } ∧
      ((s.settings.contacts.get n).mode = .level ∧ ActiveAt s n (s.contacts.get n).filtered → Raises n s t) ∧
      (¬((s.settings.contacts.get n).mode = .level ∧ ActiveAt s n (s.contacts.get n).filtered) → RaisesNothing n s t) ∧
      OtherContacts n s t ∧ OnlyChanges (reach (.settlingExpiry n)) s t := by
  have hself := onContact_self s n fun c => { c with state := .watching, settlingTimer := none }
  have hothers := onContact_others s n fun c => { c with state := .watching, settlingTimer := none }
  have same := (AlertSame.refl n s).onContact n fun c => { c with state := .watching, settlingTimer := none }
  have hexec : expireSettling n s =
      judgeLevel n (s.onContact n fun c => { c with state := .watching, settlingTimer := none }) := by
    simp only [expireSettling, htimer]
  have hjudged : Judged n (s.onContact n fun c => { c with state := .watching, settlingTimer := none }) ↔
      (s.settings.contacts.get n).mode = .level ∧ ActiveAt s n (s.contacts.get n).filtered := by
    unfold Judged
    rw [hself]
    exact ⟨fun h => ⟨h.2.2.1, h.2.2.2⟩, fun h => ⟨rfl, hlatch, h⟩⟩
  obtain ⟨hcontact, hraises, hquiet, hrest⟩ := judgeLevel_judges same (by rw [hself])
  rw [hjudged, ← hexec] at hraises hquiet
  rw [← hexec] at hcontact hrest
  refine ⟨expireSettling n s, rfl, ?_, hraises, hquiet, fun m hm => (hrest m hm).trans (hothers m hm),
    expireSettling_changes n s⟩
  rw [hself] at hcontact
  exact hcontact

theorem enabling_judges (n : Fin 4) (v : Nat) (s : State) (hv : v ≠ 0) (hoff : (s.settings.contacts.get n).enable = false)
    (hlatch : (s.contacts.get n).latch = none) :
    ∃ t, exec (.setContactEnable n v) s = .next t ∧
      t.settings = { s.settings with contacts := s.settings.contacts.update n fun c => { c with enable := true } } ∧
      t.contacts.get n = { s.contacts.get n with state := .watching, latch := (t.contacts.get n).latch } ∧
      ((s.settings.contacts.get n).mode = .level ∧ ActiveAt s n (s.contacts.get n).filtered → Raises n s t) ∧
      (¬((s.settings.contacts.get n).mode = .level ∧ ActiveAt s n (s.contacts.get n).filtered) → RaisesNothing n s t) ∧
      OtherContacts n s t ∧ ClampNoted v 1 s t ∧ OnlyChanges (reach (.setContactEnable n v)) s t := by
  obtain ⟨same, hcontacts, hsettings, hnoted⟩ :=
    contactWritten s n (fun c => { c with enable := true }) v 1 (fun _ => rfl) fun _ => rfl
  have hexec : setContactEnable n v s =
      judgeLevel n (((s.onContactSettings n fun c => { c with enable := true }).noteClamp v 1).onContact n fun c =>
        { c with state := .watching }) := by
    unfold setContactEnable switchContact
    rw [clampChoice_pos hv, hoff]
    rfl
  have hframe := setContactEnable_changes n v s
  rw [hexec] at hframe
  generalize hu : (s.onContactSettings n fun c => { c with enable := true }).noteClamp v 1 = u at *
  have hself := onContact_self u n fun c => { c with state := .watching }
  have hothers := onContact_others u n fun c => { c with state := .watching }
  rw [hcontacts] at hself
  have hget : u.settings.contacts.get n = { s.settings.contacts.get n with enable := true } := by
    rw [hsettings]
    exact Vec.get_update_self _ _ _
  have hjudged : Judged n (u.onContact n fun c => { c with state := .watching }) ↔
      (s.settings.contacts.get n).mode = .level ∧ ActiveAt s n (s.contacts.get n).filtered := by
    unfold Judged ActiveAt
    rw [hself, show (u.onContact n fun c => { c with state := .watching }).settings = u.settings from rfl, hget]
    exact ⟨fun h => ⟨h.2.2.1, h.2.2.2⟩, fun h => ⟨rfl, hlatch, h⟩⟩
  obtain ⟨hcontact, hraises, hquiet, hrest⟩ := judgeLevel_judges (same.onContact n _) (by rw [hself])
  obtain ⟨hkept, hflags⟩ := judgeLevel_keeps n (u.onContact n fun c => { c with state := .watching })
  rw [hjudged] at hraises hquiet
  rw [hself] at hcontact
  refine ⟨_, congrArg Host.Outcome.next hexec, hkept.trans hsettings, hcontact, hraises, hquiet, fun m hm => ?_,
    hflags.trans hnoted, hframe⟩
  rw [hrest m hm, hothers m hm, hcontacts]

theorem disabling_clears (n : Fin 4) (s : State) (hon : (s.settings.contacts.get n).enable = true) :
    ∃ t, exec (.setContactEnable n 0) s = .next t ∧
      t.settings = { s.settings with contacts := s.settings.contacts.update n fun c => { c with enable := false } } ∧
      t.contacts.get n = { s.contacts.get n with state := .disabled, settlingTimer := none, latch := none } ∧
      ((s.contacts.get n).latch = none → RaisesNothing n s t) ∧
      ((s.contacts.get n).latch ≠ none → t.slots.get (contactSlot n) = .free ∧ OtherSlots (contactSlot n) s t ∧
        SlotHandedOn (contactSlot n) false s t) ∧
      OtherContacts n s t ∧ ClampNoted 0 0 s t ∧ OnlyChanges (reach (.setContactEnable n 0)) s t := by
  obtain ⟨same, hcontacts, hsettings, hnoted⟩ :=
    contactWritten s n (fun c => { c with enable := false }) 0 0 (fun _ => rfl) fun _ => rfl
  have hframe := setContactEnable_changes n 0 s
  have hexec : setContactEnable n 0 s = switchContact n true false
      ((s.onContactSettings n fun c => { c with enable := false }).noteClamp 0 0) := by
    unfold setContactEnable
    rw [hon]
    rfl
  rw [hexec] at hframe
  generalize hu : (s.onContactSettings n fun c => { c with enable := false }).noteClamp 0 0 = u at *
  have hself := onContact_self u n fun c => { c with state := .disabled, settlingTimer := none }
  have hothers := onContact_others u n fun c => { c with state := .disabled, settlingTimer := none }
  have hoff := same.onContact n fun c => { c with state := .disabled, settlingTimer := none }
  rw [hcontacts] at hself
  have hswitch : switchContact n true false u =
      if (s.contacts.get n).latch.isSome then
        clearAlert n (u.onContact n fun c => { c with state := .disabled, settlingTimer := none })
      else u.onContact n fun c => { c with state := .disabled, settlingTimer := none } := by
    rw [← hcontacts]
    rfl
  refine ⟨_, congrArg Host.Outcome.next hexec, ?_⟩
  cases hlatch : (s.contacts.get n).latch with
  | none =>
    rw [hlatch, Option.isSome_none, if_neg (by simp)] at hswitch
    rw [hswitch] at hframe ⊢
    refine ⟨hsettings, by rw [hself, ← hlatch], fun _ => ⟨by rw [hself], hoff.slots, hoff.disp⟩, fun hne => absurd rfl hne,
      fun m hm => (hothers m hm).trans (by rw [hcontacts]), hnoted, hframe⟩
  | some alert =>
    rw [hlatch, Option.isSome_some, if_pos rfl] at hswitch
    rw [hswitch] at hframe ⊢
    obtain ⟨hcontact, hrest⟩ := clearAlert_contact n (u.onContact n fun c => { c with state := .disabled, settlingTimer := none })
    obtain ⟨hkept, hflags⟩ := clearAlert_keeps n (u.onContact n fun c => { c with state := .disabled, settlingTimer := none })
    refine ⟨hkept.trans hsettings, by rw [hcontact, hself], nofun, fun _ => clearAlert_frees hoff, fun m hm => ?_,
      hflags.trans hnoted, hframe⟩
    rw [hrest m hm, hothers m hm, hcontacts]

theorem modeSet_judges (n : Fin 4) (v : Nat) (s : State) :
    let judged : Prop := (s.contacts.get n).state = .watching ∧ (s.contacts.get n).latch = none ∧ v ≠ 0 ∧
      ActiveAt s n (s.contacts.get n).filtered
    ∃ t, exec (.setContactMode n v) s = .next t ∧
      t.settings = { s.settings with
        contacts := s.settings.contacts.update n fun c => { c with mode := if v = 0 then .edge else .level } } ∧
      t.contacts.get n = { s.contacts.get n with latch := (t.contacts.get n).latch } ∧ (judged → Raises n s t) ∧
      (¬judged → RaisesNothing n s t) ∧
      OtherContacts n s t ∧ ClampNoted v (min v 1) s t ∧ OnlyChanges (reach (.setContactMode n v)) s t := by
  have hzero : min v 1 = 0 ↔ v = 0 := by omega
  obtain ⟨same, hcontacts, hsettings, hnoted⟩ :=
    contactWritten s n (fun c => { c with mode := if v = 0 then .edge else .level }) v (min v 1) (fun _ => rfl) fun _ => rfl
  have hexec : setContactMode n v s = judgeLevel n
      ((s.onContactSettings n fun c => { c with mode := if v = 0 then .edge else .level }).noteClamp v (min v 1)) := by
    unfold setContactMode
    simp only [clampChoice_eq, hzero]
  have hframe := judgedSetting_changes n s
    (fun st => { st with contacts := st.contacts.update n fun c => { c with mode := if v = 0 then .edge else .level } })
    v (min v 1)
  change OnlyChanges _ s (judgeLevel n
    ((s.onContactSettings n fun c => { c with mode := if v = 0 then .edge else .level }).noteClamp v (min v 1))) at hframe
  generalize hu : (s.onContactSettings n fun c => { c with mode := if v = 0 then .edge else .level }).noteClamp v (min v 1)
    = u at *
  have hget : u.settings.contacts.get n = { s.settings.contacts.get n with mode := if v = 0 then .edge else .level } := by
    rw [hsettings]
    exact Vec.get_update_self _ _ _
  have hlevel : (if v = 0 then ContactMode.edge else .level) = .level ↔ v ≠ 0 := by
    by_cases h : v = 0 <;> simp [h]
  have hjudged : Judged n u ↔ (s.contacts.get n).state = .watching ∧ (s.contacts.get n).latch = none ∧ v ≠ 0 ∧
      ActiveAt s n (s.contacts.get n).filtered := by
    unfold Judged ActiveAt
    rw [hcontacts, hget, hlevel]
  obtain ⟨hcontact, hraises, hquiet, hrest⟩ := judgeLevel_judges same (by rw [hcontacts])
  obtain ⟨hkept, hflags⟩ := judgeLevel_keeps n u
  rw [hjudged] at hraises hquiet
  rw [hcontacts] at hcontact
  refine ⟨_, congrArg Host.Outcome.next hexec, hkept.trans hsettings, hcontact, hraises, hquiet, fun m hm => ?_,
    hflags.trans hnoted, hframe⟩
  rw [hrest m hm, hcontacts]

theorem polaritySet_judges (n : Fin 4) (v : Nat) (s : State) :
    ∃ t,
      let judged : Prop := (s.contacts.get n).state = .watching ∧ (s.contacts.get n).latch = none ∧
        (s.settings.contacts.get n).mode = .level ∧ ActiveAt t n (s.contacts.get n).filtered
      exec (.setContactPolarity n v) s = .next t ∧
        t.settings = { s.settings with
          contacts := s.settings.contacts.update n fun c =>
            { c with polarity := if v = 0 then .activeLow else .activeHigh } } ∧
        t.contacts.get n = { s.contacts.get n with latch := (t.contacts.get n).latch } ∧ (judged → Raises n s t) ∧
        (¬judged → RaisesNothing n s t) ∧
        OtherContacts n s t ∧ ClampNoted v (min v 1) s t ∧ OnlyChanges (reach (.setContactPolarity n v)) s t := by
  have hzero : min v 1 = 0 ↔ v = 0 := by omega
  obtain ⟨same, hcontacts, hsettings, hnoted⟩ :=
    contactWritten s n (fun c => { c with polarity := if v = 0 then .activeLow else .activeHigh }) v (min v 1) (fun _ => rfl)
      fun _ => rfl
  have hexec : setContactPolarity n v s = judgeLevel n
      ((s.onContactSettings n fun c => { c with polarity := if v = 0 then .activeLow else .activeHigh }).noteClamp v
        (min v 1)) := by
    unfold setContactPolarity
    simp only [clampChoice_eq, hzero]
  have hframe := judgedSetting_changes n s
    (fun st => { st with contacts := st.contacts.update n fun c => { c with polarity := if v = 0 then .activeLow else .activeHigh } })
    v (min v 1)
  change OnlyChanges _ s (judgeLevel n
    ((s.onContactSettings n fun c => { c with polarity := if v = 0 then .activeLow else .activeHigh }).noteClamp v (min v 1))) at hframe
  generalize hu : (s.onContactSettings n fun c =>
    { c with polarity := if v = 0 then .activeLow else .activeHigh }).noteClamp v (min v 1) = u at *
  have hget : u.settings.contacts.get n =
      { s.settings.contacts.get n with polarity := if v = 0 then .activeLow else .activeHigh } := by
    rw [hsettings]
    exact Vec.get_update_self _ _ _
  obtain ⟨hkept, hflags⟩ := judgeLevel_keeps n u
  have hjudged : Judged n u ↔ (s.contacts.get n).state = .watching ∧ (s.contacts.get n).latch = none ∧
      (s.settings.contacts.get n).mode = .level ∧ ActiveAt (judgeLevel n u) n (s.contacts.get n).filtered := by
    unfold Judged ActiveAt
    rw [hkept, hcontacts, hget]
  obtain ⟨hcontact, hraises, hquiet, hrest⟩ := judgeLevel_judges same (by rw [hcontacts])
  rw [hjudged] at hraises hquiet
  rw [hcontacts] at hcontact
  refine ⟨_, congrArg Host.Outcome.next hexec, hkept.trans hsettings, hcontact, hraises, hquiet, fun m hm => ?_,
    hflags.trans hnoted, hframe⟩
  rw [hrest m hm, hcontacts]

theorem enableHeld_stays (n : Fin 4) (v : Nat) (s : State) (hheld : (s.settings.contacts.get n).enable = decide (v ≠ 0)) :
    ∃ t, exec (.setContactEnable n v) s = .next t ∧ ClampNoted v (min v 1) s t ∧ OnlyChanges [.flags] s t := by
  have hchoice : decide (clampChoice v = 1) = decide (v ≠ 0) := by
    rw [clampChoice_eq]
    exact decide_eq_decide.mpr (by omega)
  have hsame : s.onContactSettings n (fun c => { c with enable := decide (v ≠ 0) }) = s := by
    have hupdate : s.settings.contacts.update n (fun c => { c with enable := decide (v ≠ 0) }) = s.settings.contacts := by
      refine Vec.ext_get fun m => ?_
      rw [Vec.get_update]
      split
      next heq => rw [← heq, ← hheld]
      · rfl
    exact congrArg (fun cs : Vec ContactSettings 4 =>
      { s with mgmt := { s.mgmt with settings := { s.mgmt.settings with contacts := cs } } }) hupdate
  refine ⟨s.noteClamp v (min v 1), congrArg Host.Outcome.next ?_, noteClamp_noted s id v (min v 1), noteClamp_changes s v _⟩
  unfold setContactEnable switchContact
  rw [hchoice, hheld, if_pos rfl, hsame, clampChoice_eq]

/-- Settles O33. -/
theorem levelContactsAreJudgedWhenTheyWatch : Obligations.LevelContactsAreJudgedWhenTheyWatch :=
  ⟨settlingExpiry_judges, enabling_judges, disabling_clears, enableHeld_stays, modeSet_judges, polaritySet_judges⟩

/-! ### ACK_ALERT (R115) -/

theorem takeAckAlert_clears {n : Fin 4} {s : State} (hlatch : (s.contacts.get n).latch ≠ none)
    (hover : ¬((s.settings.contacts.get n).mode = .level ∧ ActiveAt s n (s.contacts.get n).filtered)) :
    takeAckAlert n.val s = clearAlert n s := by
  obtain ⟨alert, halert⟩ := Option.ne_none_iff_exists'.mp hlatch
  rw [← contactIsActive_iff] at hover
  simp only [takeAckAlert, finOf?_val, halert, if_neg hover]

/-- Settles O34. -/
theorem ackAlertClearsAnAlertThatIsOver : Obligations.AckAlertClearsAnAlertThatIsOver := by
  refine ⟨fun contact s hbeyond => ?_, fun n s hclear => ?_, fun n s hlatch hmode hactive => ?_,
    fun n s hlatch hover => ?_⟩
  · refine ⟨s.refuse 0x4A .badField, congrArg Host.Outcome.next ?_, refuse_refusedOnly s _ _⟩
    simp only [takeAckAlert, finOf?_eq_none.mpr (show 4 ≤ contact from hbeyond)]
    rfl
  · refine congrArg Host.Outcome.next ?_
    simp only [takeAckAlert, finOf?_val, hclear]
  · obtain ⟨alert, halert⟩ := Option.ne_none_iff_exists'.mp hlatch
    refine ⟨s.refuse 0x4A .stillActive, congrArg Host.Outcome.next ?_, refuse_refusedOnly s _ _⟩
    simp only [takeAckAlert, finOf?_val, halert, if_pos (And.intro hmode ((contactIsActive_iff s n).mpr hactive))]
    rfl
  · obtain ⟨hcontact, hothers⟩ := clearAlert_contact n s
    obtain ⟨hfree, hslots, hhanded⟩ := clearAlert_frees (AlertSame.refl n s)
    exact ⟨clearAlert n s, congrArg Host.Outcome.next (takeAckAlert_clears hlatch hover), hcontact, hfree, hslots, hothers,
      hhanded, clearAlert_changes n s⟩

/-! ### Every change of a slot (R99) -/

/-- Settles O31: every command that changes a slot does so by `setSlot`, whose change is handed on. -/
theorem slotChangesJudgeMessageZonesAgain : Obligations.SlotChangesJudgeMessageZonesAgain := by
  intro c i newText s hchanges _
  cases c with
  | message body =>
    obtain ⟨rfl, htaken⟩ := hchanges
    obtain ⟨priority, -, htake⟩ := takeMessage_taken htaken
    exact ⟨_, congrArg Host.Outcome.next htake, (setSlot_handedOn rfl rfl rfl i _ true).2.2⟩
  | messageEnd slot =>
    obtain ⟨rfl, rfl, r, left, hslot⟩ := hchanges
    exact ⟨_, congrArg Host.Outcome.next (takeMessageEnd_active hslot), (setSlot_handedOn rfl rfl rfl i _ false).2.2⟩
  | messageDurationExpiry slot =>
    obtain ⟨rfl, rfl, r, left, hslot, hleft⟩ := hchanges
    exact ⟨_, execMessageDurationExpiry_ends hslot hleft, (setSlot_handedOn rfl rfl rfl _ _ false).2.2⟩
  | filterExpiry n =>
    obtain ⟨rfl, rfl, htimer, hstate, hlatch, hmoved, hactive⟩ := hchanges
    obtain ⟨time, htime⟩ := Option.ne_none_iff_exists'.mp htimer
    obtain ⟨t, hexec, -, hraises, -⟩ := filteredLevelRaisesTheAlert.2 n time s htime hmoved
    obtain ⟨-, -, -, hhanded⟩ := hraises ⟨hstate, hlatch, hactive⟩
    exact ⟨t, hexec, hhanded⟩
  | ackAlert contact =>
    obtain ⟨rfl, n, rfl, rfl, hlatch, hover⟩ := hchanges
    exact ⟨_, congrArg Host.Outcome.next (takeAckAlert_clears hlatch hover), (clearAlert_frees (AlertSame.refl n s)).2.2⟩
  | settlingExpiry n =>
    obtain ⟨rfl, rfl, htimer, hlatch, hjudged⟩ := hchanges
    obtain ⟨time, htime⟩ := Option.ne_none_iff_exists'.mp htimer
    obtain ⟨t, hexec, -, hraises, -⟩ := settlingExpiry_judges n time s htime hlatch
    obtain ⟨-, -, -, hhanded⟩ := hraises hjudged
    exact ⟨t, hexec, hhanded⟩
  | setContactEnable n v =>
    obtain ⟨rfl, ⟨rfl, hv, hoff, hlatch, hjudged⟩ | ⟨rfl, rfl, hon, hlatch⟩⟩ := hchanges
    · obtain ⟨t, hexec, -, -, hraises, -⟩ := enabling_judges n v s hv hoff hlatch
      obtain ⟨-, -, -, hhanded⟩ := hraises hjudged
      exact ⟨t, hexec, hhanded⟩
    · obtain ⟨t, hexec, -, -, -, hclears, -⟩ := disabling_clears n s hon
      exact ⟨t, hexec, (hclears hlatch).2.2⟩
  | setContactMode n v =>
    obtain ⟨rfl, rfl, hv, hstate, hlatch, hactive⟩ := hchanges
    obtain ⟨t, hexec, -, -, hraises, -⟩ := modeSet_judges n v s
    obtain ⟨-, -, -, hhanded⟩ := hraises ⟨hstate, hlatch, hv, hactive⟩
    exact ⟨t, hexec, hhanded⟩
  | setContactPolarity n v =>
    obtain ⟨rfl, rfl, hstate, hlatch, hmode, hfiltered⟩ := hchanges
    obtain ⟨t, hexec, hsettings, -, hraises, -⟩ := polaritySet_judges n v s
    have hactive : ActiveAt t n (s.contacts.get n).filtered := by
      unfold ActiveAt
      rw [hsettings, Vec.get_update_self, hfiltered]
      by_cases hv : v = 0 <;> simp [hv]
    obtain ⟨-, -, -, hhanded⟩ := hraises ⟨hstate, hlatch, hmode, hactive⟩
    exact ⟨t, hexec, hhanded⟩
  | _ => exact hchanges.elim

end Sys2Proof.Machine

/-! The light (R156 to R161) and the application of a swap (R63, R105, R143, R154). -/

namespace Sys2Proof.Machine

open Claims

/-! ### A group set, and the palettes it makes due (R160, R161) -/

theorem PalettesFollowLevels.congr {s s' t : State} (h : PalettesFollowLevels s' t) (hdisp : s.disp = s'.disp)
    (hpanel : s.scene.panel = s'.scene.panel) (hgroups : s.light.groups = s'.light.groups) : PalettesFollowLevels s t := by
  unfold PalettesFollowLevels
  rw [hdisp, hpanel, hgroups]
  exact h

/-- Palettes follow levels through two moves of which no group takes part in both. -/
theorem PalettesFollowLevels.trans {s t u : State} (h : PalettesFollowLevels s t) (k : PalettesFollowLevels t u)
    (hpanel : t.scene.panel = s.scene.panel)
    (hone : ∀ n, t.light.groups.get n = s.light.groups.get n ∨ u.light.groups.get n = t.light.groups.get n) :
    PalettesFollowLevels s u := fun p => by
  rw [k p, h p, hpanel]
  cases (s.scene.panel p).map PanelRow.dim with
  | none => simp
  | some dim =>
    cases dim with
    | fixed level => simp
    | sensor n => rcases hone n with heq | heq <;> simp [heq]

theorem markGroup_get (sc : Scene) (n : Fin 4) (d : Display) (p : Fin 16) :
    (markGroup sc n d).panels.get p = { d.panels.get p with
      palettePending := (d.panels.get p).palettePending || decide ((sc.panel p).map PanelRow.dim = some (DimGroup.sensor n)) } := by
  unfold markGroup
  dsimp only
  rw [Vec.get_mapIdx]
  cases sc.panel p with
  | none => simp
  | some row =>
    dsimp only
    split
    next hdim => simp [hdim]
    next hdim => simp [hdim]

theorem setGroup_palettes (s : State) (n : Fin 4) (g : Group) : PalettesFollowLevels s (s.setGroup n g) := fun p => by
  rw [setGroup_light]
  have hlevel (m : Fin 4) : decide (((s.light.groups.set n g).get m).level ≠ (s.light.groups.get m).level) =
      decide (n = m ∧ g.level ≠ (s.light.groups.get n).level) := by
    rw [Vec.get_set]
    by_cases heq : n = m
    · simp [heq]
    · simp [heq]
  simp only [hlevel]
  unfold State.setGroup
  dsimp only
  split
  next hsame =>
    cases (s.scene.panel p).map PanelRow.dim with
    | none => simp
    | some dim => cases dim <;> simp [hsame]
  next hmoved =>
    refine (markGroup_get _ n s.disp p).trans ?_
    show { s.disp.panels.get p with
      palettePending := (s.disp.panels.get p).palettePending ||
        decide ((s.scene.panel p).map PanelRow.dim = some (DimGroup.sensor n)) } = _
    cases (s.scene.panel p).map PanelRow.dim with
    | none => simp
    | some dim => cases dim <;> simp [hmoved, eq_comm]

/-! ### Operations that move one sensor and its group -/

/-- An operation that moves one sensor and its group, by the curve and the fallback level, and makes the palettes of
the group due. -/
structure MovesGroup (f : State → Fin 4 → State) (sensor : Fin 4 → Sensor → Sensor)
    (group : Option (List (Nat × Nat)) → Nat → Fin 4 → Sensor → Group → Group) : Prop where
  sensors : ∀ s n m, (f s n).light.sensors.get m =
    if n = m then sensor n (s.light.sensors.get m) else s.light.sensors.get m
  groups : ∀ s n m, (f s n).light.groups.get m =
    if n = m then group s.tables.activeBank.curve s.settings.fallbackLevel n (s.light.sensors.get m) (s.light.groups.get m)
    else s.light.groups.get m
  palettes : ∀ s n, PalettesFollowLevels s (f s n)
  frame : ∀ s n, OnlyChanges [.sensors, .groups, .panels] s (f s n)

section
variable {f : State → Fin 4 → State} {sensor : Fin 4 → Sensor → Sensor}
  {group : Option (List (Nat × Nat)) → Nat → Fin 4 → Sensor → Group → Group} (h : MovesGroup f sensor group)
include h

/-- Each sensor of a list and its group move by themselves. -/
theorem MovesGroup.foldl (l : List (Fin 4)) (hnodup : l.Nodup) (s : State) :
    (∀ n, (l.foldl f s).light.sensors.get n =
        if n ∈ l then sensor n (s.light.sensors.get n) else s.light.sensors.get n) ∧
      (∀ n, (l.foldl f s).light.groups.get n =
        if n ∈ l then
          group s.tables.activeBank.curve s.settings.fallbackLevel n (s.light.sensors.get n) (s.light.groups.get n)
        else s.light.groups.get n) ∧
      PalettesFollowLevels s (l.foldl f s) ∧ OnlyChanges [.sensors, .groups, .panels] s (l.foldl f s) := by
  induction l generalizing s with
  | nil =>
    refine ⟨fun n => rfl, fun n => rfl, fun p => ?_, OnlyChanges.refl _ s⟩
    cases (s.scene.panel p).map PanelRow.dim with
    | none => simp
    | some dim => cases dim <;> simp
  | cons x rest ih =>
    obtain ⟨hx, hrest⟩ := List.nodup_cons.mp hnodup
    obtain ⟨hsensors, hgroups, hpalettes, hframe⟩ := ih hrest (f s x)
    have hfirst := h.frame s x
    have htables : (f s x).tables = s.tables := hfirst .tables (by decide)
    have hsettings : (f s x).settings = s.settings := hfirst .settings (by decide)
    rw [List.foldl_cons]
    refine ⟨fun n => ?_, fun n => ?_, PalettesFollowLevels.trans (h.palettes s x) hpalettes (panel_of_bank (by rw [htables])) fun n => ?_,
      hfirst.trans hframe⟩
    · rw [hsensors, h.sensors]
      by_cases heq : x = n
      · subst heq
        rw [if_neg hx, if_pos rfl, if_pos List.mem_cons_self]
      · simp only [if_neg heq, List.mem_cons, Ne.symm heq, false_or]
    · rw [hgroups, h.groups, h.sensors, htables, hsettings]
      by_cases heq : x = n
      · subst heq
        rw [if_neg hx, if_pos rfl, if_pos List.mem_cons_self]
      · simp only [if_neg heq, List.mem_cons, Ne.symm heq, false_or]
    · by_cases heq : x = n
      · subst heq
        exact .inr (by rw [hgroups, if_neg hx])
      · exact .inl (by rw [h.groups, if_neg heq])

/-- All four sensors and groups. -/
theorem MovesGroup.all (s : State) :
    (∀ n, ((List.finRange 4).foldl f s).light.sensors.get n = sensor n (s.light.sensors.get n)) ∧
      (∀ n, ((List.finRange 4).foldl f s).light.groups.get n =
        group s.tables.activeBank.curve s.settings.fallbackLevel n (s.light.sensors.get n) (s.light.groups.get n)) ∧
      PalettesFollowLevels s ((List.finRange 4).foldl f s) ∧
      OnlyChanges [.sensors, .groups, .panels] s ((List.finRange 4).foldl f s) := by
  obtain ⟨hsensors, hgroups, hrest⟩ := h.foldl (List.finRange 4) (List.nodup_finRange 4) s
  exact ⟨fun n => (hsensors n).trans (if_pos (List.mem_finRange n)),
    fun n => (hgroups n).trans (if_pos (List.mem_finRange n)), hrest⟩

end

/-! ### The fallback level (R160) -/

theorem computedLevel_fallback_iff (curve : Option (List (Nat × Nat))) (fallback : Nat) (x : Sensor) :
    ((computedLevel curve fallback x).source = .fallback ↔ curve = none ∨ ¬(x.state = .good ∧ x.seeded = true)) ∧
      ((computedLevel curve fallback x).source = .fallback → computedLevel curve fallback x = ⟨fallback, .fallback⟩) := by
  unfold computedLevel
  cases curve with
  | none => simp
  | some points =>
    dsimp only
    split
    next h => simp [h]
    next h => simp [h]

/-- A group where the fallback level is set: the computed level where its source is the fallback (R160). -/
def refallen (curve : Option (List (Nat × Nat))) (fallback : Nat) (x : Sensor) (g : Group) : Group :=
  if (computedLevel curve fallback x).source = .fallback then computedLevel curve fallback x else g

theorem refallGroup_moves : MovesGroup (fun s n => refallGroup n s) (fun _ x => x) fun curve fallback _ => refallen curve fallback where
  sensors s n m := by
    rw [ite_self]
    unfold refallGroup
    dsimp only
    split
    · rw [setGroup_light]
    · rfl
  groups s n m := by
    unfold refallGroup refallen
    dsimp only
    split
    next hsource =>
      rw [setGroup_light, Vec.get_set]
      split
      next heq => rw [← heq, if_pos hsource]
      · rfl
    next hsource =>
      split
      next heq => rw [← heq, if_neg hsource]
      · rfl
  palettes s n := by
    unfold refallGroup
    dsimp only
    split
    · exact setGroup_palettes s n _
    · refine fun p => ?_
      cases (s.scene.panel p).map PanelRow.dim with
      | none => simp
      | some dim => cases dim <;> simp
  frame s n := (refallGroup_changes n s).mono (by decide)

/-- Settles O44. -/
theorem fallbackLevelMovesFallbackGroups : Obligations.FallbackLevelMovesFallbackGroups := by
  intro v s
  obtain ⟨hsettings, hnoted, hframe⟩ := setting_written s (fun st => { st with fallbackLevel := min v 255 }) v (min v 255)
  have hexec : setSensorFallbackLevel v s =
      refallAll ((s.onSettings fun st => { st with fallbackLevel := min v 255 }).noteClamp v (min v 255)) := by
    unfold setSensorFallbackLevel
    rw [clampRange_zero_eq]
  have hdisp : ((s.onSettings fun st => { st with fallbackLevel := min v 255 }).noteClamp v (min v 255)).disp = s.disp := by
    unfold State.noteClamp
    split <;> rfl
  generalize (s.onSettings fun st => { st with fallbackLevel := min v 255 }).noteClamp v (min v 255) = u at *
  have htables : u.tables = s.tables := hframe .tables (by decide)
  have hsensors : u.light.sensors = s.light.sensors := hframe .sensors (by decide)
  have hlevels : u.light.groups = s.light.groups := hframe .groups (by decide)
  have moved := refallAll_changes u
  obtain ⟨-, hgroups, hpalettes, -⟩ := refallGroup_moves.all u
  rw [htables, hsettings] at hgroups
  refine ⟨refallAll u, congrArg Host.Outcome.next hexec, (moved .settings (by decide)).trans hsettings,
    Eq.trans (moved .flags (by decide)) hnoted, fun n => ?_, ?_, ?_⟩
  · have hgroup : (refallAll u).light.groups.get n =
        refallen s.tables.activeBank.curve (min v 255) (s.light.sensors.get n) (s.light.groups.get n) := by
      rw [← hsensors, ← hlevels]
      exact hgroups n
    obtain ⟨hsource, hcomputed⟩ :=
      computedLevel_fallback_iff s.tables.activeBank.curve (min v 255) (s.light.sensors.get n)
    rw [hgroup, refallen]
    refine ⟨fun hfallback => ?_, fun hcurve => ?_⟩
    · have hsrc := hsource.mpr (hfallback.imp_right fun h => by rcases h with h | h <;> simp [h])
      rw [if_pos hsrc, hcomputed hsrc]
    · rw [if_neg]
      rw [hsource]
      rintro (hnone | hnot)
      · exact hcurve.1 hnone
      · exact hnot hcurve.2
  · exact PalettesFollowLevels.congr hpalettes hdisp.symm (panel_of_bank (by rw [htables])).symm hlevels.symm
  · exact (hframe.mono (by decide)).trans (moved.mono (by decide))

/-! ### Samples (R156, R157, R160) -/

theorem sample_sampled {x : Sensor} (hrun : x.run ≤ 39) (v : Nat) : Sampled x (x.sample v) v := by
  have hjudge : judgeRun ≤ x.run + 1 ↔ x.run = 39 := by
    unfold judgeRun
    omega
  unfold Sampled Sensor.sample Sensor.feed
  cases hstate : x.state with
  | good =>
    dsimp only
    by_cases hv : v = 255
    · by_cases h39 : x.run = 39
      · simp [hv, judgeRun, h39]
      · simp [hv, hjudge, h39]
    · simp [hv]
  | failed =>
    dsimp only
    by_cases hv : v = 255
    · simp [hv]
    · by_cases h39 : x.run = 39
      · simp [hv, judgeRun, h39]
      · simp [hv, hjudge, h39]

theorem takeSample_moves (v : Fin 4 → Nat) :
    MovesGroup (fun s n => takeSample n (v n) s) (fun n x => x.sample (v n))
      fun curve fallback n x g => sampledGroup curve fallback x (x.sample (v n)) g where
  sensors s n m := by
    unfold takeSample
    dsimp only
    rw [setGroup_light]
    dsimp only
    rw [Vec.get_set]
    split
    next heq => rw [heq]
    · rfl
  groups s n m := by
    unfold takeSample
    dsimp only
    rw [setGroup_light]
    dsimp only
    rw [Vec.get_set]
    split
    next heq => rw [heq]
    · rfl
  palettes s n := by
    unfold takeSample
    exact PalettesFollowLevels.congr (setGroup_palettes _ n _) rfl rfl rfl
  frame s n := takeSample_changes n (v n) s

theorem Sensor.Ok.run_le {x : Sensor} (h : x.Ok) : x.run ≤ 39 := by
  obtain ⟨-, -, hrun, -⟩ := h
  exact Nat.le_of_lt_succ hrun

/-- A group after a sample, on an ordinary occasion and on every other (R160). -/
theorem sampledGroup_moves (curve : Option (List (Nat × Nat))) (fallback : Nat) {x y : Sensor} {v : Nat}
    (hsampled : Sampled x y v) (g : Group) :
    let computed := computedLevel curve fallback y
    let ordinary := x.state = .good ∧ x.seeded = true ∧ y.state = .good ∧ computed.source = .curve ∧ g.source = .curve
    (¬ordinary → sampledGroup curve fallback x y g = computed) ∧
      (ordinary → sampledGroup curve fallback x y g =
        if g.level + 6 ≤ computed.level ∨ computed.level + 6 ≤ g.level ∨ atCurveEnd curve computed.level = true then computed
        else g) := by
  dsimp only
  refine ⟨fun hother => if_neg ?_, fun hordinary => ?_⟩
  · rintro ⟨hx, hseeded, hy, -, hcomputed, hg⟩
    exact hother ⟨hx, hseeded, hy, hcomputed, hg⟩
  · obtain ⟨hx, hseeded, hy, hcomputed, hg⟩ := hordinary
    have hyseeded : y.seeded = true := (hsampled.2.1 hx).2.1
    have hgroup : g = ⟨g.level, .curve⟩ := by rw [← hg]
    have hlevel : computedLevel curve fallback y = ⟨(computedLevel curve fallback y).level, .curve⟩ := by rw [← hcomputed]
    unfold sampledGroup ordinaryLevel hysteresis
    dsimp only
    rw [if_pos ⟨hx, hseeded, hy, hyseeded, hcomputed, hg⟩]
    generalize (computedLevel curve fallback y) = c at *
    by_cases hfar : g.level + 6 ≤ c.level ∨ c.level + 6 ≤ g.level
    · rw [if_pos hfar, if_pos (or_assoc.mp (.inl hfar)), ← hlevel]
    · by_cases hend : atCurveEnd curve c.level = true
      · rw [if_neg hfar, if_pos hend, if_pos (.inr (.inr hend)), ← hlevel]
      · rw [if_neg hfar, if_neg hend, if_neg fun h => (or_assoc.mpr h).elim hfar hend, ← hgroup]

theorem smoothed_of_restored (v : Nat) : (⟨true, 8 * v, v, .good, 0⟩ : Sensor).smoothed = v := by
  unfold Sensor.smoothed
  dsimp only
  omega

/-- One sensor's sample alone, taken for a sample of every one of which only that one is. -/
theorem takeSample_one (n : Fin 4) (v : Nat) (s : State) :
    (takeSample n v s).light.sensors.get n = (s.light.sensors.get n).sample v ∧
      (takeSample n v s).light.groups.get n = sampledGroup s.tables.activeBank.curve s.settings.fallbackLevel
        (s.light.sensors.get n) ((s.light.sensors.get n).sample v) (s.light.groups.get n) ∧
      (∀ m, m ≠ n → (takeSample n v s).light.sensors.get m = s.light.sensors.get m ∧
        (takeSample n v s).light.groups.get m = s.light.groups.get m) ∧
      PalettesFollowLevels s (takeSample n v s) ∧ OnlyChanges [.sensors, .groups, .panels] s (takeSample n v s) := by
  have moves := takeSample_moves fun _ => v
  exact ⟨(moves.sensors s n n).trans (if_pos rfl), (moves.groups s n n).trans (if_pos rfl),
    fun m hm => ⟨(moves.sensors s n m).trans (if_neg (Ne.symm hm)), (moves.groups s n m).trans (if_neg (Ne.symm hm))⟩,
    moves.palettes s n, moves.frame s n⟩

/-- The sample of a sensor, of the four that arrive together. -/
def sampleOf (s0 s1 s2 s3 : Byte) (n : Fin 4) : Byte := [s0, s1, s2, s3].getD n.val 0

theorem sampleOf_getElem? (s0 s1 s2 s3 : Byte) (n : Fin 4) :
    [s0, s1, s2, s3][n.val]? = some (sampleOf s0 s1 s2 s3 n) := by
  have hlt : n.val < [s0, s1, s2, s3].length := n.isLt
  unfold sampleOf
  rw [List.getD_eq_getElem _ _ hlt]
  exact List.getElem?_eq_getElem hlt

theorem foldl_takeSample (s0 s1 s2 s3 : Byte) (s : State) :
    (List.finRange 4).foldl (fun s n => takeSample n (sampleOf s0 s1 s2 s3 n).toNat s) s =
      takeSample 3 s3.toNat (takeSample 2 s2.toNat (takeSample 1 s1.toNat (takeSample 0 s0.toNat s))) := by
  have h0 : sampleOf s0 s1 s2 s3 0 = s0 := rfl
  have h1 : sampleOf s0 s1 s2 s3 1 = s1 := rfl
  have h2 : sampleOf s0 s1 s2 s3 2 = s2 := rfl
  have h3 : sampleOf s0 s1 s2 s3 3 = s3 := rfl
  rw [(by decide : List.finRange 4 = [0, 1, 2, 3])]
  simp only [List.foldl_cons, List.foldl_nil, h0, h1, h2, h3]

/-- Settles O56. -/
theorem samplesMoveSensorsAndGroups : Obligations.SamplesMoveSensorsAndGroups := by
  refine ⟨fun s0 s1 s2 s3 s hok => ?_, fun n s hstate hrun => ?_, fun n v s hv hstate hrun => ?_⟩
  · obtain ⟨hsensors, hgroups, hpalettes, hframe⟩ :=
      (takeSample_moves fun n => (sampleOf s0 s1 s2 s3 n).toNat).all s
    have hexec : exec (.lightSample s0 s1 s2 s3) s = .next ((List.finRange 4).foldl
        (fun s n => takeSample n (sampleOf s0 s1 s2 s3 n).toNat s) s) :=
      congrArg Host.Outcome.next (foldl_takeSample s0 s1 s2 s3 s).symm
    generalize (List.finRange 4).foldl (fun s n => takeSample n (sampleOf s0 s1 s2 s3 n).toNat s) s = t at *
    refine ⟨t, hexec, fun n => ⟨sampleOf s0 s1 s2 s3 n, sampleOf_getElem? s0 s1 s2 s3 n, ?_⟩, hpalettes, hframe⟩
    have hsampled := sample_sampled (hok n).run_le (sampleOf s0 s1 s2 s3 n).toNat
    have hsensor := hsensors n
    have hgroup := hgroups n
    rw [← hsensor] at hsampled hgroup
    refine ⟨hsampled, ?_⟩
    have hmoves := sampledGroup_moves s.tables.activeBank.curve s.settings.fallbackLevel hsampled (s.light.groups.get n)
    rw [← hgroup] at hmoves
    exact hmoves
  · obtain ⟨hsensor, hgroup, hothers, hpalettes, hframe⟩ := takeSample_one n 255 s
    have hsampled := sample_sampled (x := s.light.sensors.get n) (by omega) 255
    have hfailed : ((s.light.sensors.get n).sample 255).state = .failed := by
      have := (hsampled.2.1 hstate).2.2.2 rfl
      rw [if_pos hrun] at this
      exact this.1
    refine ⟨_, congrArg Host.Outcome.next (if_pos ⟨hstate, by rw [hrun]; exact (by decide : judgeRun ≤ 39 + 1)⟩),
      hsensor ▸ hsampled, by rw [hsensor, hfailed], ?_, hothers, hpalettes, hframe⟩
    rw [hgroup, (sampledGroup_moves _ _ hsampled _).1 (by rw [hfailed]; rintro ⟨-, -, h, -⟩; cases h)]
    obtain ⟨hsource, hcomputed⟩ := computedLevel_fallback_iff s.tables.activeBank.curve s.settings.fallbackLevel
      ((s.light.sensors.get n).sample 255)
    exact hcomputed (hsource.mpr (.inr (by rw [hfailed]; rintro ⟨h, -⟩; cases h)))
  · obtain ⟨hsensor, hgroup, hothers, hpalettes, hframe⟩ := takeSample_one n v.toNat s
    have hbelow : v.toNat ≠ 255 := fun h => hv (BitVec.eq_of_toNat_eq h)
    have hsampled := sample_sampled (x := s.light.sensors.get n) (by omega) v.toNat
    have hrestored : (s.light.sensors.get n).sample v.toNat = ⟨true, 8 * v.toNat, v.toNat, .good, 0⟩ :=
      (hsampled.2.2 hstate).2.2 hbelow hrun
    refine ⟨_, congrArg Host.Outcome.next (if_pos ⟨hstate, by rw [hrun]; exact (by decide : judgeRun ≤ 39 + 1), hv⟩),
      hsensor.trans hrestored, ?_, hothers, hpalettes, hframe⟩
    rw [hgroup, (sampledGroup_moves _ _ hsampled _).1 (by rw [hstate]; rintro ⟨h, -⟩; cases h), hrestored]
    unfold computedLevel
    cases s.tables.activeBank.curve with
    | none => rfl
    | some points => simp [smoothed_of_restored]

/-! ### The swap (R63, R154) -/

theorem stillPlaced_iff (bank : Bank) (b : Bus) (f : Frame) :
    f.stillPlaced bank b = true ↔
      ∃ row, bank.panels.find f.panel.val = some row ∧ row.bus = b ∧ row.address = f.address := by
  unfold Frame.stillPlaced
  cases bank.panels.find f.panel.val with
  | none => simp
  | some row => simp

theorem applySwap_bus (s : State) (b : Bus) :
    (applySwap s).buses.get b = (s.buses.get b).swapTo s.tables.swapped.activeBank b := by
  cases b <;> rfl

/-- Settles O41. -/
theorem pendingSwapIsApplied : Obligations.PendingSwapIsApplied := by
  refine ⟨fun s hpending => ?_, fun s hpending => ⟨takeSecond s, rfl, ?_⟩⟩
  · have hswap : tickSwap s = applySwap s := if_pos hpending
    refine ⟨applySwap s, congrArg Host.Outcome.next hswap, rfl, ?_, rfl, rfl, fun p row hrow => ?_,
      displayStarted_restart (d := s.disp) rfl, fun n => Vec.get_tabulate _ n, fun b => ⟨?_, fun hnone => ?_, fun f hf => ?_⟩,
      fun b f => ?_, hswap ▸ tickSwap_changes s⟩
    · show (applySwap s).tables.standbyBank = _
      unfold TableStore.standbyBank TableStore.activeBank
      show s.tables.bank s.tables.active.other.other = _
      cases s.tables.active <;> rfl
    · obtain ⟨hview, -⟩ := restartDisplay_shownOk (applySwap s).scene s.disp p
      rw [hrow] at hview
      exact ⟨_, hview, chosenView_is _ p row⟩
    · rw [applySwap_bus]
      rfl
    · rw [applySwap_bus]
      show (s.buses.get b).inFlight.map _ = none
      rw [hnone]
      rfl
    · refine ⟨f.orphaned || !f.stillPlaced s.tables.swapped.activeBank b, ?_, ?_⟩
      · rw [applySwap_bus]
        show (s.buses.get b).inFlight.map _ = _
        rw [hf]
        rfl
      · rw [Bool.or_eq_true, Bool.not_eq_true', ← Bool.not_eq_true, stillPlaced_iff]
        rfl
    · rw [applySwap_bus]
      exact Option.filter_eq_some_iff
  · rw [takeSecond_tables, hpending, if_pos rfl]
    refine ⟨rfl, ?_, rfl⟩
    unfold TableStore.standbyBank TableStore.activeBank
    show s.tables.bank s.tables.active.other.other = _
    cases s.tables.active <;> rfl

end Sys2Proof.Machine

/-! The choice of a frame (R144 to R147). -/

namespace Sys2Proof.Machine

open Claims

/-! ### The order of a choice (R146) -/

/-- How far behind the marker of a bus a panel comes in its turn. -/
def turn (marker p : Fin 16) : Nat := (p.val + 15 - marker.val) % 16

theorem turn_lt (marker p : Fin 16) : turn marker p < 16 := Nat.mod_lt _ (by decide)

theorem turn_of_place (marker i : Fin 16) : turn marker (marker + 1 + i) = i.val := by
  have hsum : (marker + 1 + i).val = ((marker.val + 1) % 16 + i.val) % 16 := by
    rw [Fin.val_add, Fin.val_add]
    rfl
  unfold turn
  rw [hsum]
  omega

theorem place_of_turn (marker p : Fin 16) : marker + 1 + ⟨turn marker p, turn_lt marker p⟩ = p := by
  have hsum : (marker + 1 + ⟨turn marker p, turn_lt marker p⟩ : Fin 16).val =
      ((marker.val + 1) % 16 + turn marker p) % 16 := by
    rw [Fin.val_add, Fin.val_add]
    rfl
  refine Fin.ext (hsum.trans ?_)
  unfold turn
  omega

theorem choiceOrder_getElem (marker : Fin 16) {i : Nat} (h : i < 16) :
    (choiceOrder marker)[i]'(by simpa [choiceOrder] using h) = marker + 1 + ⟨i, h⟩ := by
  simp [choiceOrder]

/-- A choice finds the first panel of its order that qualifies. -/
theorem find_choiceOrder {marker p : Fin 16} {P : Fin 16 → Bool} (h : (choiceOrder marker).find? P = some p) :
    P p = true ∧ ∀ q, P q = true → turn marker p ≤ turn marker q := by
  obtain ⟨hp, i, hi, hget, hbefore⟩ := List.find?_eq_some_iff_getElem.mp h
  have hlt : i < 16 := by simpa [choiceOrder] using hi
  rw [choiceOrder_getElem marker hlt] at hget
  refine ⟨hp, fun q hq => Nat.le_of_not_lt fun hearlier => ?_⟩
  rw [← hget, turn_of_place] at hearlier
  have hskipped := hbefore (turn marker q) hearlier
  rw [choiceOrder_getElem marker (turn_lt marker q), place_of_turn, hq] at hskipped
  cases hskipped

theorem find_choiceOrder_none {marker : Fin 16} {P : Fin 16 → Bool} (h : (choiceOrder marker).find? P = none) (q : Fin 16) :
    P q = false := by
  refine Bool.eq_false_iff.mpr (List.find?_eq_none.mp h q ?_)
  have hlt := turn_lt marker q
  have hin := List.getElem_mem (l := choiceOrder marker) (n := turn marker q) (by simpa [choiceOrder] using hlt)
  rwa [choiceOrder_getElem marker hlt, place_of_turn] at hin

/-! ### The panel chosen (R145, R146) -/

section
variable {s : State} {b : Bus}

theorem hasWork_iff (d : Display) (p : Fin 16) :
    hasWork d p = true ↔
      (((d.panels.get p).state = .starting ∨ (d.panels.get p).state = .online) ∧
          ((d.panels.get p).viewCommand ≠ none ∨ (d.panels.get p).palettePending = true ∨
            (d.seq.views.get p ≠ some .blank ∧ d.lines.dirty.get p ≠ []))) ∨
        ((d.panels.get p).state = .fault ∧ (d.panels.get p).probeDue = true) := by
  unfold hasWork
  cases hstate : (d.panels.get p).state <;> simp [Option.isSome_iff_ne_none, hstate, or_assoc]

theorem isCandidate_iff_candidate (p : Fin 16) : isCandidate s b p = true ↔ Candidate s b p := by
  have hserves : (s.buses.get b).serves p = false ↔ (∀ f, (s.buses.get b).inFlight = some f → f.panel ≠ p) ∧
      ∀ f, (s.buses.get b).codedAhead = some f → f.panel ≠ p := by
    unfold PanelBus.serves
    cases (s.buses.get b).inFlight <;> cases (s.buses.get b).codedAhead <;> simp
  rw [isCandidate_iff, hasWork_iff, hserves]
  exact Iff.rfl

theorem chosenPanel_spec {p : Fin 16} (h : chosenPanel s b = some p) :
    Candidate s b p ∧
      ((∃ q, Candidate s b q ∧ s.disp.seq.views.get q = some .emergency) → s.disp.seq.views.get p = some .emergency) ∧
      ∀ q, Candidate s b q → (s.disp.seq.views.get q = some .emergency ↔ s.disp.seq.views.get p = some .emergency) →
        turn (s.buses.get b).marker p ≤ turn (s.buses.get b).marker q := by
  simp only [← isCandidate_iff_candidate]
  unfold chosenPanel at h
  dsimp only at h
  split at h
  next first hfirst =>
    obtain rfl := Option.some.inj h
    obtain ⟨hp, hearliest⟩ := find_choiceOrder hfirst
    obtain ⟨hemergency, hcandidate⟩ := Bool.and_eq_true _ _ ▸ hp
    have hview := of_decide_eq_true hemergency
    refine ⟨hcandidate, fun _ => hview, fun q hq htier => hearliest q ?_⟩
    rw [htier.mpr hview, hq]
    simp
  next hnone =>
    obtain ⟨hcandidate, hearliest⟩ := find_choiceOrder h
    refine ⟨hcandidate, ?_, fun q hq _ => hearliest q hq⟩
    rintro ⟨q, hq, hemergency⟩
    have := find_choiceOrder_none hnone q
    rw [hemergency, hq] at this
    cases this

theorem chosenPanel_none (h : chosenPanel s b = none) (q : Fin 16) : ¬Candidate s b q := by
  rw [← isCandidate_iff_candidate]
  unfold chosenPanel at h
  dsimp only at h
  split at h
  · cases h
  · rw [find_choiceOrder_none h q]
    nofun

end

/-! ### The work chosen (R125, R145, R152) -/

/-- The first work of a panel: a probe for a FAULT panel, else its view command, its palette or its lowest dirty line. -/
def FirstWork (d : Display) (p : Fin 16) (work : FrameWork) : Prop :=
  if (d.panels.get p).state = .fault then work = .palette
  else
    match (d.panels.get p).viewCommand, (d.panels.get p).palettePending, d.lines.dirty.get p with
    | some c, _, _ => work = .view c
    | none, true, _ => work = .palette
    | none, false, y :: _ => work = .line y
    | none, false, [] => False

theorem chosenWork_first {d : Display} {p : Fin 16} (h : hasWork d p = true) :
    ∃ work, chosenWork d p = some work ∧ FirstWork d p work := by
  unfold chosenWork FirstWork
  dsimp only
  by_cases hfault : (d.panels.get p).state = .fault
  · simp only [if_pos hfault]
    exact ⟨_, rfl, rfl⟩
  · simp only [if_neg hfault]
    have hpending := (hasWork_iff d p).mp h
    rw [or_iff_left fun hf => hfault hf.1] at hpending
    obtain ⟨-, hpending⟩ := hpending
    cases hview : (d.panels.get p).viewCommand with
    | some c => exact ⟨_, rfl, rfl⟩
    | none =>
      cases hpalette : (d.panels.get p).palettePending with
      | true => exact ⟨_, rfl, rfl⟩
      | false =>
        cases hdirty : d.lines.dirty.get p with
        | cons y rest => exact ⟨_, rfl, rfl⟩
        | nil => simp [hview, hpalette, hdirty] at hpending

theorem clearWork_line (p : Fin 16) (y : Nat) (d : Display) :
    (clearWork p (.line y) d).panels = d.panels ∧
      (clearWork p (.line y) d).lines.dirty.get p = (d.lines.dirty.get p).tail :=
  ⟨rfl, Vec.get_update_self _ _ _⟩

theorem clearWork_lines {p : Fin 16} {work : FrameWork} (d : Display) (h : ∀ y, work ≠ .line y) :
    (clearWork p work d).lines = d.lines := by
  cases work with
  | line y => exact absurd rfl (h y)
  | palette | view => rfl

theorem clearWork_others {p q : Fin 16} (work : FrameWork) (d : Display) (hq : q ≠ p) :
    (clearWork p work d).panels.get q = d.panels.get q ∧
      (clearWork p work d).lines.dirty.get q = d.lines.dirty.get q ∧
      (clearWork p work d).lines.cursor.get q = d.lines.cursor.get q := by
  cases work with
  | line y => exact ⟨rfl, (Vec.get_update _ _ _ _).trans (if_neg (Ne.symm hq)), rfl⟩
  | palette | view => exact ⟨(Vec.get_update _ _ _ _).trans (if_neg (Ne.symm hq)), rfl, rfl⟩

theorem mayChoose_iff (s : State) (b : Bus) :
    mayChoose s b = true ↔ (s.buses.get b).codedAhead = none ∧ s.settings.busEnable.get b = true ∧
      (s.buses.get b).state ≠ .held := by
  unfold mayChoose
  rw [Bool.and_eq_true, Bool.and_eq_true, Option.isNone_iff_eq_none, decide_eq_true_iff, and_assoc]

theorem chooseFrame_none {b : Bus} {s : State} (h : chosenPanel s b = none) : chooseFrame b s = s := by
  unfold chooseFrame
  split
  · rw [h]
  · rfl

theorem chooseFrame_some {b : Bus} {s : State} {p : Fin 16} {row : PanelRow} {work : FrameWork}
    (hmay : mayChoose s b = true) (hp : chosenPanel s b = some p) (hrow : s.scene.panel p = some row)
    (hwork : chosenWork s.disp p = some work) :
    chooseFrame b s = State.onBus { s with disp := clearWork p work s.disp } b
      (PanelBus.place (s.settings.busRate.get b) (buildFrame s p row work)) := by
  simp only [chooseFrame, if_pos hmay, hp, hrow, hwork]

/-- Settles O52. -/
theorem frameChoiceServesItsTierInTurn : Obligations.FrameChoiceServesItsTierInTurn := by
  refine ⟨fun b p s => isCandidate_iff_candidate p, fun b s hquiet => congrArg Host.Outcome.next ?_,
    fun b s hahead henable hheld hsome => ?_⟩
  · cases hchosen : chosenPanel s b with
    | none => exact chooseFrame_none hchosen
    | some p =>
      refine chooseFrame_of_not (Bool.eq_false_iff.mpr fun hmay => ?_)
      obtain ⟨hahead, henable, hheld⟩ := (mayChoose_iff s b).mp hmay
      rcases hquiet with h | h | h | h
      · exact h hahead
      · rw [henable] at h
        cases h
      · exact hheld h
      · exact h p (chosenPanel_spec hchosen).1
  · obtain ⟨q, hq⟩ := hsome
    cases hchosen : chosenPanel s b with
    | none => exact absurd hq (chosenPanel_none hchosen q)
    | some p =>
      obtain ⟨hcandidate, hemergency, hfirst⟩ := chosenPanel_spec hchosen
      obtain ⟨⟨row, hrow, hbus⟩, hwork, -⟩ := isCandidate_iff.mp ((isCandidate_iff_candidate p).mpr hcandidate)
      obtain ⟨work, hchosenWork, hfirstWork⟩ := chosenWork_first hwork
      have hexec := chooseFrame_some ((mayChoose_iff s b).mpr ⟨hahead, henable, hheld⟩) hchosen hrow hchosenWork
      have hframe := chooseFrame_changes b s
      rw [hexec] at hframe
      refine ⟨_, p, row, work, congrArg Host.Outcome.next hexec, hcandidate, hrow, hbus, hemergency, hfirst,
        ⟨hfirstWork, ?_, ?_, ?_, fun hno => clearWork_lines s.disp hno, ?_⟩,
        fun r hr => clearWork_others work s.disp hr, hframe⟩
      · rintro rfl
        exact Vec.get_update_self _ _ _
      · rintro c rfl
        exact Vec.get_update_self _ _ _
      · rintro y rfl
        obtain ⟨hpanels, htail⟩ := clearWork_line p y s.disp
        exact ⟨congrArg (fun panels => panels.get p) hpanels, htail⟩
      · rw [State.onBus_self]
        rfl

end Sys2Proof.Machine

/-! Outcomes, timers and the clock line of a bus (R147 to R155). -/

namespace Sys2Proof.Machine

open Claims

/-! ### One panel's record changed -/

theorem onPanel_get (d : Display) (p q : Fin 16) (f : PanelBusRecord → PanelBusRecord) :
    (d.onPanel p f).panels.get q = if p = q then f (d.panels.get q) else d.panels.get q := Vec.get_update _ _ _ _

theorem onPanel_self (d : Display) (p : Fin 16) (f : PanelBusRecord → PanelBusRecord) :
    (d.onPanel p f).panels.get p = f (d.panels.get p) := Vec.get_update_self _ _ _

/-- What belongs to every panel but one, in two displays: its bus record, its dirty lines and its cursor. -/
def RestSame (p : Fin 16) (d e : Display) : Prop :=
  ∀ q, q ≠ p → e.panels.get q = d.panels.get q ∧ e.lines.dirty.get q = d.lines.dirty.get q ∧
    e.lines.cursor.get q = d.lines.cursor.get q

theorem RestSame.refl (p : Fin 16) (d : Display) : RestSame p d d := fun _ _ => ⟨rfl, rfl, rfl⟩

theorem RestSame.trans {p : Fin 16} {d e f : Display} (h : RestSame p d e) (k : RestSame p e f) : RestSame p d f :=
  fun q hq => by
    obtain ⟨hpanel, hdirty, hcursor⟩ := h q hq
    obtain ⟨kpanel, kdirty, kcursor⟩ := k q hq
    exact ⟨kpanel.trans hpanel, kdirty.trans hdirty, kcursor.trans hcursor⟩

theorem onPanel_restSame (d : Display) (p : Fin 16) (f : PanelBusRecord → PanelBusRecord) : RestSame p d (d.onPanel p f) :=
  fun q hq => ⟨(onPanel_get d p q f).trans (if_neg (Ne.symm hq)), rfl, rfl⟩

/-! ### Work handed back (R150) -/

section
variable (sc : Scene) (f : Frame) (d : Display)

/-- The record of a frame's panel with its work handed back. -/
theorem handBack_record : (handBack sc f d).panels.get f.panel =
    { d.panels.get f.panel with
      viewCommand :=
        match f.work with
        | .view c => some ((d.panels.get f.panel).viewCommand.getD c)
        | .line _ | .palette => (d.panels.get f.panel).viewCommand
      palettePending := (d.panels.get f.panel).palettePending || decide (f.work = .palette) } := by
  unfold handBack
  cases f.work with
  | line y =>
    dsimp only
    split <;> simp [Display.mark]
  | palette => simp [onPanel_self]
  | view c =>
    dsimp only
    rw [onPanel_self]
    cases (d.panels.get f.panel).viewCommand <;> simp

theorem mem_handBack (q : Fin 16) (y : Nat) : y ∈ (handBack sc f d).lines.dirty.get q ↔ y ∈ d.lines.dirty.get q ∨
    (q = f.panel ∧ f.work = .line y ∧ ∃ row, sc.panel f.panel = some row ∧ y < row.height) := by
  unfold handBack
  cases f.work with
  | line x =>
    dsimp only
    cases sc.panel f.panel with
    | none => simp
    | some row =>
      refine mem_mark.trans (or_congr_right (and_congr_right fun _ => ?_))
      constructor
      · rintro ⟨hy, hlt⟩
        exact ⟨by rw [List.mem_singleton.mp hy], row, rfl, hlt⟩
      · rintro ⟨hwork, _, hrow, hlt⟩
        cases hwork
        cases hrow
        exact ⟨List.mem_singleton.mpr rfl, hlt⟩
  | palette => simp [Display.onPanel]
  | view c => simp [Display.onPanel]

theorem handBack_cursor : (handBack sc f d).lines.cursor = d.lines.cursor :=
  (handBack_changes sc f d).cursor_eq (by decide)

theorem handBack_restSame : RestSame f.panel d (handBack sc f d) := by
  unfold handBack
  split
  · split
    · exact fun q hq => ⟨rfl, (Vec.get_update _ _ _ _).trans (if_neg (Ne.symm hq)), rfl⟩
    · exact RestSame.refl _ d
  · exact onPanel_restSame d _ _
  · exact onPanel_restSame d _ _

end

/-! ### What an outcome does to its panel (R148 to R152) -/

theorem gapOf_eq (busClass : Nat) :
    (if classGap busClass = 0 then none else some (classGap busClass)) = gapOf busClass := by
  unfold classGap gapOf
  rcases busClass with _ | _ | _ | n <;> simp

theorem startGap_of {sc : Scene} {f : Frame} {row : PanelRow} (hrow : sc.panel f.panel = some row) (d : Display) :
    startGap sc f d = d.onPanel f.panel fun r => { r with gapTimer := gapOf row.busClass } := by
  unfold startGap
  rw [hrow]
  dsimp only
  rw [gapOf_eq]

theorem failed_eq (r : PanelBusRecord) (h : r.state ≠ .absent) : r.failed =
    { r with
      state := if r.state = .fault ∨ 8 ≤ min 255 (r.failures + 1) then .fault else r.state
      failures := min 255 (r.failures + 1)
      probeTimer := if r.state = .fault ∨ 8 ≤ min 255 (r.failures + 1) then some 10 else r.probeTimer
      probeDue := r.probeDue && !decide (r.state ≠ .fault ∧ 8 ≤ min 255 (r.failures + 1)) } := by
  unfold PanelBusRecord.failed
  rw [saturate_eq_min]
  generalize min 255 (r.failures + 1) = count
  cases hstate : r.state with
  | absent => exact absurd hstate h
  | fault => simp [probePeriod]
  | starting | online =>
    dsimp only
    by_cases hcount : 8 ≤ count <;> simp [hcount, faultCount, probePeriod]

/-- A failed frame's panel, as R150 has it. -/
theorem failFrame_fails {s u : State} {f : Frame} {row : PanelRow} (hrow : s.scene.panel f.panel = some row)
    (hstate : (s.disp.panels.get f.panel).state ≠ .absent)
    (hdisp : u.disp = startGap s.scene f (failFrame s.scene f s.disp)) : Fails f row s u := by
  have hgap := startGap_of hrow (failFrame s.scene f s.disp)
  have hhanded : ((handBack s.scene f s.disp).panels.get f.panel).state ≠ .absent := by
    rw [handBack_record]
    exact hstate
  unfold Fails
  dsimp only
  rw [hdisp, hgap, onPanel_self]
  refine ⟨?_, fun y => ?_, ?_, ?_⟩
  · rw [show (failFrame s.scene f s.disp).panels.get f.panel = _ from onPanel_self _ _ _, failed_eq _ hhanded, handBack_record] <;> rfl
  · show y ∈ (handBack s.scene f s.disp).lines.dirty.get f.panel ↔ _
    rw [mem_handBack, hrow]
    simp
  · show (handBack s.scene f s.disp).lines.cursor.get f.panel = _
    rw [handBack_cursor]
  · show RestSame f.panel s.disp u.disp
    rw [hdisp, hgap]
    exact ((handBack_restSame s.scene f s.disp).trans (onPanel_restSame _ _ _)).trans (onPanel_restSame _ _ _)

/-! ### The bus settles (R147, R148, R151) -/

theorem settle_settled (rate : Nat) (clockLow : Bool) (bus : PanelBus) :
    Settled rate clockLow bus ((bus.afterOutcome clockLow).startAhead rate) := by
  unfold Settled PanelBus.afterOutcome PanelBus.startAhead PanelBus.start
  cases clockLow with
  | true => simp
  | false => cases bus.codedAhead <;> simp

/-- The state once an outcome has been taken, before the bus chooses again. -/
theorem settleOutcome_of {b : Bus} {f : Frame} {s : State} (ack : Bool) (hf : (s.buses.get b).inFlight = some f) :
    (settleOutcome b ack s).disp = (judgeOutcome f ack s).disp ∧
      Settled (s.settings.busRate.get b) (s.pins.clockLow.get b) (s.buses.get b) ((settleOutcome b ack s).buses.get b) := by
  unfold settleOutcome
  rw [hf]
  refine ⟨rfl, ?_⟩
  dsimp only
  rw [State.onBus_self, judgeOutcome_buses]
  exact settle_settled _ _ _

/-- An outcome of an orphaned frame touches the bus alone (R154). -/
theorem settleOutcome_orphaned {b : Bus} {f : Frame} {s : State} (ack : Bool) (hf : (s.buses.get b).inFlight = some f)
    (horphaned : f.orphaned = true) : OnlyChanges [.bus b] s (settleOutcome b ack s) := by
  have hjudged : judgeOutcome f ack s = s := if_pos horphaned
  unfold settleOutcome
  rw [hf]
  dsimp only
  rw [hjudged]
  exact onBus_changes s b _

theorem judgeOutcome_own {f : Frame} (hown : f.orphaned = false) (ack : Bool) (s : State) :
    (judgeOutcome f ack s).disp =
      startGap s.scene f (if ack then acknowledge s.scene f s.disp else failFrame s.scene f s.disp) := by
  unfold judgeOutcome
  rw [hown]
  rfl

/-- A failure leaves the refresh cursors. -/
theorem settleOutcome_failed_changes (b : Bus) (s : State) :
    OnlyChanges [.dirty, .panels, .bus b] s (settleOutcome b false s) := by
  unfold settleOutcome
  split
  · exact OnlyChanges.refl _ s
  · refine OnlyChanges.trans ?_ ((onBus_changes _ b _).mono (by simp))
    unfold judgeOutcome
    split
    · exact OnlyChanges.refl _ s
    · refine onDisplay_changes (fun sc d => ?_) s
      exact ((failFrame_changes sc _ d).mono (by simp)).trans ((startGap_changes sc _ _).mono (by simp))

/-- A failure of a flying frame, with the choices that follow it. -/
theorem takeOutcome_fails {state : BusState} {b : Bus} {f : Frame} {row : PanelRow} {s : State}
    (h : Flying state s b f row) :
    ∃ u, Fails f row s u ∧
      Settled (s.settings.busRate.get b) (s.pins.clockLow.get b) (s.buses.get b) (u.buses.get b) ∧
      OnlyChanges [.dirty, .panels, .bus b] s u ∧ ChosenAgain b u (takeOutcome b false s) := by
  obtain ⟨-, hf, hown, hrow, hpresent⟩ := h
  obtain ⟨hdisp, hsettled⟩ := settleOutcome_of false hf
  refine ⟨settleOutcome b false s, ?_, hsettled, settleOutcome_failed_changes b s, rfl⟩
  exact failFrame_fails hrow hpresent (hdisp.trans (judgeOutcome_own hown false s))

/-! ### Failures (R148, R150 to R152) -/

theorem execPanelAnswer_failed {b : Bus} {data : Byte} {marker : Bool} {s : State} (hstate : (s.buses.get b).state = .awaiting)
    (hwrong : data ≠ 0xA5 ∨ marker = true) : exec (.panelAnswer b data marker) s = .next (takeOutcome b false s) := by
  have hnot : isAck data marker = false := by
    unfold isAck
    rcases hwrong with h | h
    · rw [decide_eq_false (show ¬data = ackByte from h), Bool.false_and]
    · rw [h, Bool.not_true, Bool.and_false]
  refine congrArg Host.Outcome.next ((if_pos hstate).trans ?_)
  rw [hnot]

theorem execAnswerTimeout_failed {b : Bus} {s : State} (h : (s.buses.get b).answerTimer ≠ none) :
    exec (.answerTimeout b) s = .next (takeOutcome b false s) :=
  congrArg Host.Outcome.next (if_pos (Option.isSome_iff_ne_none.mpr h))

theorem execHoldTimeout_failed {b : Bus} {s : State} (h : (s.buses.get b).holdTimer ≠ none) :
    exec (.holdTimeout b) s = .next (takeOutcome b false s) :=
  congrArg Host.Outcome.next (if_pos (Option.isSome_iff_ne_none.mpr h))

/-- The bus that awaits the answer of a panel one failure short of FAULT. -/
theorem faultingBus_eq {b : Bus} {f : Frame} {row : PanelRow} {s : State} (h : Flying .awaiting s b f row)
    (hstate : (s.disp.panels.get f.panel).state ≠ .fault) (hcount : 7 ≤ (s.disp.panels.get f.panel).failures)
    (hother : ∀ b' g, b' ≠ b → (s.buses.get b').inFlight = some g → g.panel ≠ f.panel) :
    faultingBus s f.panel = some b := by
  obtain ⟨hawaiting, hf, hown, -, hpresent⟩ := h
  have hruns : (s.disp.panels.get f.panel).state = .starting ∨ (s.disp.panels.get f.panel).state = .online := by
    cases hs : (s.disp.panels.get f.panel).state <;> simp_all
  have hdue : faultCount ≤ (s.disp.panels.get f.panel).failures + 1 := Nat.succ_le_succ hcount
  unfold faultingBus State.panelRecord
  dsimp only
  rw [if_pos ⟨hruns, hdue⟩]
  cases b with
  | busA => simp [hawaiting, hf, hown]
  | busB =>
    have hskip : ∀ g, (s.buses.get .busA).inFlight = some g → g.panel ≠ f.panel :=
      fun g => hother .busA g (by decide)
    rw [List.find?_cons_of_neg, List.find?_cons_of_pos]
    · simp [hawaiting, hf, hown]
    · cases hflying : (s.buses.get .busA).inFlight with
      | none => simp
      | some g => simp [hskip g hflying]

/-- Settles O55: each of the four is the same failure of the frame awaited. -/
theorem failureHandsTheWorkBack : Obligations.FailureHandsTheWorkBack := by
  intro b f row s c hflying hc
  obtain ⟨u, hfails⟩ := takeOutcome_fails hflying
  refine ⟨takeOutcome b false s, u, ?_, hfails⟩
  rcases hc with ⟨data, marker, rfl, hwrong⟩ | ⟨rfl, htimer⟩ | ⟨rfl, htimer⟩ | ⟨rfl, hstate, hcount, hother⟩
  · exact execPanelAnswer_failed hflying.1 hwrong
  · exact execAnswerTimeout_failed htimer
  · exact execHoldTimeout_failed htimer
  · refine congrArg Host.Outcome.next ?_
    rw [faultingBus_eq hflying hstate hcount hother]

/-! ### An ACK, and orphaned frames (R149, R152, R154) -/

theorem acknowledge_online {sc : Scene} {f : Frame} {d : Display} (hpresent : (d.panels.get f.panel).state ≠ .absent)
    (hstate : (d.panels.get f.panel).state ≠ .fault) :
    acknowledge sc f d = d.onPanel f.panel fun r => { r with state := .online, failures := 0 } := by
  unfold acknowledge
  cases hs : (d.panels.get f.panel).state <;> simp_all

theorem acknowledge_restarts {sc : Scene} {f : Frame} {d : Display} {row : PanelRow} (hrow : sc.panel f.panel = some row)
    (hstate : (d.panels.get f.panel).state = .fault) : acknowledge sc f d = startPanel f.panel row d := by
  simp only [acknowledge, hstate, hrow]

theorem startPanel_restSame (p : Fin 16) (row : PanelRow) (d : Display) : RestSame p d (startPanel p row d) := fun _ hq =>
  ⟨Vec.get_set_of_ne _ (Ne.symm hq) _, Vec.get_set_of_ne _ (Ne.symm hq) _, Vec.get_set_of_ne _ (Ne.symm hq) _⟩

theorem execPanelAnswer_ack {b : Bus} {s : State} (hstate : (s.buses.get b).state = .awaiting) :
    exec (.panelAnswer b 0xA5 false) s = .next (takeOutcome b true s) := by
  have hack : isAck 0xA5 false = true := by decide
  refine congrArg Host.Outcome.next ((if_pos hstate).trans ?_)
  rw [hack]

/-- Settles O54. -/
theorem ackBringsThePanelOnlineUnlessOrphaned : Obligations.AckBringsThePanelOnlineUnlessOrphaned := by
  refine ⟨fun b f row s hflying => ?_, fun b f c s hstate hf horphaned hc => ?_, fun b data marker s hstate => ?_⟩
  · obtain ⟨hstate, hf, hown, hrow, hpresent⟩ := hflying
    obtain ⟨hdisp, hsettled⟩ := settleOutcome_of true hf
    have hjudged : (settleOutcome b true s).disp =
        (acknowledge s.scene f s.disp).onPanel f.panel fun r => { r with gapTimer := gapOf row.busClass } := by
      rw [hdisp, judgeOutcome_own hown, startGap_of hrow]
      rfl
    refine ⟨takeOutcome b true s, settleOutcome b true s, execPanelAnswer_ack hstate, fun halive => ?_, fun hfault => ?_,
      hsettled, ?_, settleOutcome_changes b true s, rfl⟩
    · rw [hjudged, acknowledge_online hpresent halive, onPanel_self, onPanel_self]
      exact ⟨rfl, rfl⟩
    · rw [hjudged, acknowledge_restarts hrow hfault, onPanel_self]
      refine ⟨?_, Vec.get_set_self _ _ _, Vec.get_set_self _ _ _⟩
      rw [show (startPanel f.panel row s.disp).panels.get f.panel = _ from Vec.get_set_self _ _ _]
      rfl
    · show RestSame f.panel s.disp _
      rw [hjudged]
      refine RestSame.trans ?_ (onPanel_restSame _ _ _)
      by_cases hfault : (s.disp.panels.get f.panel).state = .fault
      · rw [acknowledge_restarts hrow hfault]
        exact startPanel_restSame _ _ _
      · rw [acknowledge_online hpresent hfault]
        exact onPanel_restSame _ _ _
  · have taken (ack : Bool) : ∃ u,
        Settled (s.settings.busRate.get b) (s.pins.clockLow.get b) (s.buses.get b) (u.buses.get b) ∧
          OnlyChanges [.bus b] s u ∧ ChosenAgain b u (takeOutcome b ack s) :=
      ⟨settleOutcome b ack s, (settleOutcome_of ack hf).2, settleOutcome_orphaned ack hf horphaned, rfl⟩
    rcases hc with ⟨data, marker, rfl⟩ | ⟨rfl, htimer⟩ | ⟨rfl, htimer⟩
    · obtain ⟨u, hu⟩ := taken (isAck data marker)
      exact ⟨_, u, congrArg Host.Outcome.next (if_pos hstate), hu⟩
    · obtain ⟨u, hu⟩ := taken false
      exact ⟨_, u, execAnswerTimeout_failed htimer, hu⟩
    · obtain ⟨u, hu⟩ := taken false
      exact ⟨_, u, execHoldTimeout_failed htimer, hu⟩
  · exact congrArg Host.Outcome.next (if_neg hstate)

/-! ### Timers and the clock line (R148, R151, R152, R155) -/

theorem pullClock_idle {b : Bus} {s : State} (h : (s.buses.get b).state = .idle) :
    pullClock b s = (s.setClockLow b true).onBus b fun bus => { bus with state := .held } := by
  simp only [pullClock, h]

theorem pullClock_awaiting {b : Bus} {s : State} (h : (s.buses.get b).state = .awaiting) :
    pullClock b s = (s.setClockLow b true).onBus b fun bus =>
      { bus with answerTimer := none, holdTimer := some s.settings.holdLimit } := by
  simp only [pullClock, h]

theorem pullClock_sending {b : Bus} {s : State} (h : (s.buses.get b).state = .sending) :
    pullClock b s = takeOutcome b false (s.setClockLow b true) := by
  simp only [pullClock, h]

/-- A HELD bus chooses nothing. -/
theorem chooseAgain_held {b : Bus} {s : State} (h : (s.buses.get b).state = .held) : chooseAgain b s = s := by
  have hnot : mayChoose s b = false := Bool.eq_false_iff.mpr fun hmay => ((mayChoose_iff s b).mp hmay).2.2 h
  unfold chooseAgain
  rw [chooseFrame_of_not hnot, chooseFrame_of_not hnot]

/-- A bus that settles with its clock line low is HELD; its timers were at rest. -/
theorem settled_held {rate : Nat} {bus bus' : PanelBus} (h : Settled rate true bus bus') (hanswer : bus.answerTimer = none)
    (hhold : bus.holdTimer = none) : bus' = { bus with state := .held, inFlight := none } := by
  obtain ⟨hanswer', hhold', hmarker, hheld, hnone, hahead⟩ := h
  cases bus
  cases bus'
  simp_all

/-- The clock line goes low on a SENDING bus: the frame fails, and the bus is HELD. -/
theorem pullClock_fails {b : Bus} {s : State} (hok : (s.buses.get b).Ok (s.pins.clockLow.get b))
    (hstate : (s.buses.get b).state = .sending) :
    (pullClock b s).buses.get b = { s.buses.get b with state := .held, inFlight := none } ∧
      pullClock b s = settleOutcome b false (s.setClockLow b true) := by
  obtain ⟨f, hf⟩ := Option.isSome_iff_exists.mp (hok.1.mpr (.inl hstate))
  obtain ⟨hanswer, hhold⟩ := hok.timers_none (by simp [hstate])
  have hlow : (s.setClockLow b true).pins.clockLow.get b = true := PerBus.get_set_self _ _ _
  obtain ⟨-, hsettled⟩ := settleOutcome_of (b := b) (s := s.setClockLow b true) false hf
  rw [hlow] at hsettled
  have settled := settled_held (bus := s.buses.get b) hsettled hanswer hhold
  have hheld : ((settleOutcome b false (s.setClockLow b true)).buses.get b).state = .held := by rw [settled]
  have hquiet : pullClock b s = settleOutcome b false (s.setClockLow b true) :=
    (pullClock_sending hstate).trans (chooseAgain_held hheld)
  refine ⟨?_, hquiet⟩
  rw [hquiet]
  exact settled

theorem releaseClock_awaiting {b : Bus} {s : State} (h : (s.buses.get b).state = .awaiting) :
    releaseClock b s = (s.setClockLow b false).onBus b fun bus => { bus with answerTimer := some 2, holdTimer := none } := by
  simp only [releaseClock, h]
  rfl

theorem releaseClock_held {b : Bus} {s : State} (h : (s.buses.get b).state = .held) :
    releaseClock b s = chooseAgain b ((s.setClockLow b false).onBus b fun bus =>
      PanelBus.startAhead (s.settings.busRate.get b) { bus with state := .idle }) := by
  simp only [releaseClock, h]

/-- A HELD bus whose clock line is released settles, as after an outcome with the line free. -/
theorem release_settled {bus : PanelBus} {low : Bool} (hok : bus.Ok low) (hheld : bus.state = .held) (rate : Nat) :
    Settled rate false bus (PanelBus.startAhead rate { bus with state := .idle }) := by
  obtain ⟨hanswer, hhold⟩ := hok.timers_none (by simp [hheld])
  have hflying := hok.inFlight_none (.inr hheld)
  unfold Settled PanelBus.startAhead PanelBus.start
  cases hahead : bus.codedAhead <;> simp [hanswer, hhold, hflying]

/-- Settles O53. -/
theorem timersAndTheClockLineMoveTheBus : Obligations.TimersAndTheClockLineMoveTheBus := by
  refine ⟨⟨fun b s hstate => ⟨_, congrArg Host.Outcome.next (if_pos hstate), State.onBus_self _ _ _, onBus_changes s b _⟩,
    fun p s => ⟨_, rfl, onPanel_self _ _ _, onPanel_restSame _ _ _, onPanel_changes s.disp p _ s⟩,
    fun p left s hstate htimer hleft => ?_⟩, fun b s hok => ⟨fun hfree => ?_, fun hlow => ⟨fun hstate => ?_, fun hstate => ?_⟩⟩⟩
  · have hnear : (s.panelRecord p).probeNear = true := by
      unfold PanelBusRecord.probeNear State.panelRecord
      rw [hstate, htimer]
      exact decide_eq_true hleft
    refine ⟨_, congrArg Host.Outcome.next (if_pos hnear), (onPanel_self _ _ _).trans ?_, onPanel_restSame _ _ _,
      onPanel_changes s.disp p _ s⟩
    unfold PanelBusRecord.tickProbe
    rw [if_pos hstate, htimer]
    exact if_pos hleft
  · have hpins : (pullClock b s).pins = { s.pins with clockLow := s.pins.clockLow.set b true } := by
      unfold pullClock
      dsimp only
      split
      · rfl
      · exact takeOutcome_changes b false (s.setClockLow b true) .pins (by simp)
      · rfl
      · rfl
    have hexec : exec (.clockLineLow b) s = .next (pullClock b s) :=
      congrArg Host.Outcome.next (if_neg (by rw [hfree]; nofun))
    have lowered (f : PanelBus → PanelBus) : OnlyChanges [.pins, .bus b] s ((s.setClockLow b true).onBus b f) :=
      ((setClockLow_changes s b true).mono (by simp)).trans ((onBus_changes _ b f).mono (by simp))
    refine ⟨pullClock b s, hexec, hpins, fun hstate => ?_, fun hstate => ?_, fun hstate => ?_⟩
    · rw [pullClock_idle hstate]
      exact ⟨State.onBus_self _ _ _, lowered _⟩
    · rw [pullClock_awaiting hstate]
      exact ⟨State.onBus_self _ _ _, lowered _⟩
    · obtain ⟨hbus, hsettle⟩ := pullClock_fails hok hstate
      refine ⟨hbus, fun f row hflying => ?_, fun f hf horphaned => ?_, ?_⟩
      · obtain ⟨-, hf, hown, hrow, hpresent⟩ := hflying
        rw [hsettle]
        exact failFrame_fails hrow hpresent ((settleOutcome_of (s := s.setClockLow b true) false hf).1.trans
          (judgeOutcome_own hown false (s.setClockLow b true)))
      · rw [hsettle]
        exact ((setClockLow_changes s b true).mono (by simp)).trans
          ((settleOutcome_orphaned (s := s.setClockLow b true) false hf horphaned).mono (by simp))
      · rw [hsettle]
        exact ((setClockLow_changes s b true).mono (by simp)).trans
          ((settleOutcome_failed_changes b (s.setClockLow b true)).mono (by simp))
  · refine ⟨_, congrArg Host.Outcome.next ((if_pos hlow).trans (releaseClock_awaiting hstate)), rfl, State.onBus_self _ _ _, ?_⟩
    exact ((setClockLow_changes s b false).mono (by simp)).trans ((onBus_changes _ b _).mono (by simp))
  · refine ⟨_, _, congrArg Host.Outcome.next ((if_pos hlow).trans (releaseClock_held hstate)), rfl, ?_, ?_, rfl⟩
    · rw [State.onBus_self]
      exact release_settled hok hstate _
    · exact ((setClockLow_changes s b false).mono (by simp)).trans ((onBus_changes _ b _).mono (by simp))

/-! ### A bus enabled and disabled (R153) -/

theorem setBusEnable_eq (b : Bus) (v : Nat) (s : State) : setBusEnable b v s =
    switchBus b (s.settings.busEnable.get b) (decide (v ≠ 0))
      ((s.onSettings fun st => { st with busEnable := st.busEnable.set b (decide (v ≠ 0)) }).noteClamp v (min v 1)) := by
  have hchoice : decide (min v 1 = 1) = decide (v ≠ 0) := decide_eq_decide.mpr (by omega)
  unfold setBusEnable
  rw [clampChoice_eq, hchoice]

/-- The coded-ahead frame is discarded and its work handed back, with the probe of a FAULT panel due again. -/
theorem discardAhead_of {b : Bus} {f : Frame} {s : State} (hf : (s.buses.get b).codedAhead = some f) :
    discardAhead b s = (s.onDisplay fun sc d => (handBack sc f d).onPanel f.panel fun r =>
        if r.state = .fault then { r with probeDue := true } else r).onBus b fun bus => { bus with codedAhead := none } := by
  simp only [discardAhead, hf]

theorem discardAhead_none {b : Bus} {s : State} (h : (s.buses.get b).codedAhead = none) : discardAhead b s = s := by
  simp only [discardAhead, h]

theorem setBusEnable_off {b : Bus} {s : State} (hon : s.settings.busEnable.get b = true) : setBusEnable b 0 s =
    discardAhead b (s.onSettings fun st => { st with busEnable := st.busEnable.set b false }) := by
  rw [setBusEnable_eq, hon]
  rfl

/-- Settles O43. -/
theorem busEnableHandsItsCodedAheadFrameBack : Obligations.BusEnableHandsItsCodedAheadFrameBack := by
  refine ⟨fun b v s hheld => ?_, fun b v s hv hoff => ?_, fun b s hon hnone => ?_, fun b f s hon hf => ?_⟩
  · have hsame : s.onSettings (fun st => { st with busEnable := st.busEnable.set b (decide (v ≠ 0)) }) = s := by
      have hset : s.mgmt.settings.busEnable.set b (decide (v ≠ 0)) = s.mgmt.settings.busEnable := by
        rw [← hheld]
        cases b <;> rfl
      exact congrArg (fun e : PerBus Bool =>
        { s with mgmt := { s.mgmt with settings := { s.mgmt.settings with busEnable := e } } }) hset
    refine ⟨s.noteClamp v (min v 1), congrArg Host.Outcome.next ?_, noteClamp_noted s id v (min v 1), noteClamp_changes s v _⟩
    rw [setBusEnable_eq, hheld, hsame]
    exact if_pos rfl
  · obtain ⟨hsettings, hnoted, hframe⟩ :=
      setting_written s (fun st => { st with busEnable := st.busEnable.set b true }) v 1
    refine ⟨_, _, congrArg Host.Outcome.next ?_, hsettings, hnoted, hframe, rfl⟩
    rw [setBusEnable_eq, hoff, decide_eq_true hv, show min v 1 = 1 by omega]
    rfl
  · have hnothing : discardAhead b (s.onSettings fun st => { st with busEnable := st.busEnable.set b false }) =
        s.onSettings fun st => { st with busEnable := st.busEnable.set b false } := discardAhead_none hnone
    exact ⟨_, congrArg Host.Outcome.next ((setBusEnable_off hon).trans hnothing), rfl, onSettings_changes s _⟩
  · have hexec := setBusEnable_off hon
    have hdiscard := discardAhead_of (s := s.onSettings fun st => { st with busEnable := st.busEnable.set b false }) hf
    have hframe := discardAhead_changes b (s.onSettings fun st => { st with busEnable := st.busEnable.set b false })
    rw [hdiscard] at hexec hframe
    refine ⟨_, congrArg Host.Outcome.next hexec, rfl, State.onBus_self _ _ _, fun q y => ?_, ?_, ?_,
      ((onSettings_changes s _).mono (by simp)).trans (hframe.mono (by simp))⟩
    · exact mem_handBack s.scene f s.disp q y
    · refine (onPanel_self (handBack s.scene f s.disp) f.panel _).trans ?_
      rw [handBack_record]
      dsimp only
      split
      next hfault => simp [hfault] <;> rfl
      next hfault => simp [hfault] <;> rfl
    · exact (handBack_restSame s.scene f s.disp).trans (onPanel_restSame _ _ _)

end Sys2Proof.Machine

/-! The return lane and its reports: a QUERY puts its REPORT cells at the tail of the own-reply queue, and RETURN_OUT
serves its queues in turn (R165, R170 to R172, R179, R180). -/

namespace Sys2Proof.Machine

open Claims

/-! ### Cells on a line (R165) -/

/-- A line that sends a cell as the Trunk Port transmits it, or rests for want of one. -/
theorem lineSends_transmit (t : TrunkPort) (cell : Option (List Byte)) :
    LineSends t.rateCode cell (cell.map t.transmit) := by
  cases cell with
  | none => rfl
  | some cell =>
    exact ⟨_, rfl, trunkRate_eq_rateOf t.rateCode, t.transmit_data cell, fun _ _ h => TrunkPort.transmit_marker h⟩

theorem returnOutSends_of {t : State}
    (h : t.trunk.returnOut = t.trunk.sending.bind fun q => (t.trunk.queue q).head?.map t.trunk.transmit) :
    ReturnOutSends t := by
  unfold ReturnOutSends
  rw [h]
  cases t.trunk.sending with
  | none => rfl
  | some q => cases q <;> exact lineSends_transmit _ _

theorem trunkOutSends_of {t : State} (h : t.trunk.trunkOut = t.trunk.forward.head?.map t.trunk.transmit) :
    TrunkOutSends t := by
  unfold TrunkOutSends
  rw [h]
  exact lineSends_transmit _ _

/-- RETURN_OUT sends the same while the served queue, its head and the rate stay. -/
theorem ReturnOutSends.congr {s t : State} (h : ReturnOutSends s) (hrate : t.trunk.rateCode = s.trunk.rateCode)
    (hsending : t.trunk.sending = s.trunk.sending) (hrelay : t.trunk.relay = s.trunk.relay)
    (hown : t.trunk.own = s.trunk.own) (hout : t.trunk.returnOut = s.trunk.returnOut) : ReturnOutSends t := by
  unfold ReturnOutSends at h ⊢
  rw [hrate, hsending, hrelay, hown, hout]
  exact h

/-! ### Joining the own-reply queue (R171, R172) -/

/-- The arbiter on a lane whose own-reply queue holds a cell: what it serves, and the marker. -/
theorem arbitrate_own {t : TrunkPort} (hown : t.own ≠ []) :
    if t.sending = none then
      t.arbitrate.sending = some (if t.relay ≠ [] ∧ t.lastServed = .own then .relay else .own) ∧
        t.arbitrate.sending = some t.arbitrate.lastServed
    else t.arbitrate.sending = t.sending ∧ t.arbitrate.lastServed = t.lastServed := by
  have hnext : t.nextServed = some (if t.relay ≠ [] ∧ t.lastServed = .own then .relay else .own) := by
    unfold TrunkPort.nextServed
    cases ho : t.own with
    | nil => exact absurd ho hown
    | cons cell rest => cases t.relay <;> cases t.lastServed <;> simp
  show if t.sending = none then t.serve.sending = _ ∧ t.serve.sending = some t.serve.lastServed
    else t.serve.sending = _ ∧ t.serve.lastServed = _
  obtain ⟨q, hidle, hq, heq⟩ | ⟨hbusy, heq⟩ := t.serve_cases
  · rw [if_pos hidle, heq]
    exact ⟨hq.symm.trans hnext, rfl⟩
  · rw [if_neg fun hidle => by simp [hbusy hidle] at hnext, heq]
    exact ⟨rfl, rfl⟩

theorem joinOwn_of_room {s : State} (h : s.trunk.own.length < 4) (cell : List Byte) :
    joinOwn s cell = s.onTrunk fun t => { t with own := t.own ++ [cell] }.arbitrate := if_pos h

theorem joinOwn_of_full {s : State} (h : ¬s.trunk.own.length < 4) (cell : List Byte) :
    joinOwn s cell = s.onFlags Flags.raiseReplyDrop := if_neg h

/-- One cell joins the own-reply queue, or raises REPLY_DROP. -/
theorem joinOwn_joins (s : State) (cell : List Byte) : JoinOwn [cell] s.mgmt.flags.replyDrop s (joinOwn s cell) := by
  unfold JoinOwn
  by_cases hroom : s.trunk.own.length < 4
  · have hfields := arbitrate_fields { s.trunk with own := s.trunk.own ++ [cell] }
    obtain ⟨-, -, -, -, hrelay, hown, -⟩ := hfields
    have hserved := arbitrate_own (t := { s.trunk with own := s.trunk.own ++ [cell] }) (by simp)
    rw [joinOwn_of_room hroom]
    refine ⟨?_, hrelay, ?_, ?_, ?_⟩
    · rw [List.take_of_length_le (by simp; omega)]
      exact hown
    · rw [decide_eq_false (by simp; omega), Bool.or_false]
      rfl
    · simp only [hroom, and_true]
      exact hserved
    · rw [if_pos hroom]
      exact returnOutSends_of (TrunkPort.arbitrate_returnOut _)
  · rw [joinOwn_of_full hroom]
    refine ⟨?_, rfl, ?_, ?_, ?_⟩
    · rw [Nat.sub_eq_zero_of_le (by omega), List.take_zero, List.append_nil]
      rfl
    · rw [decide_eq_true (by simp; omega), Bool.or_true]
      rfl
    · rw [if_neg fun h => hroom h.2]
      exact ⟨rfl, rfl⟩
    · rw [if_neg hroom]
      rfl

/-- A cell joins, then others. -/
theorem joinOwn_cons {cell : List Byte} {cells : List (List Byte)} {before : Bool} {s u t : State}
    (hfirst : JoinOwn [cell] before s u) (hrest : JoinOwn cells u.mgmt.flags.replyDrop u t)
    (hrate : t.trunk.rateCode = u.trunk.rateCode) : JoinOwn (cell :: cells) before s t := by
  obtain ⟨hown, hrelay, hdrop, hserved, hout⟩ := hfirst
  obtain ⟨hown', hrelay', hdrop', hserved', hout'⟩ := hrest
  have hsent : t.trunk.sending = u.trunk.sending ∧ t.trunk.lastServed = u.trunk.lastServed := by
    have hbusy : ¬(u.trunk.sending = none ∧ u.trunk.own.length < 4) := fun ⟨hnone, hlt⟩ => by
      split at hserved
      next => simp [hnone] at hserved
      next hbusy =>
        refine hbusy ⟨hserved.1 ▸ hnone, ?_⟩
        rw [hown] at hlt
        simp at hlt
        omega
    rw [if_neg hbusy] at hserved'
    exact hserved'
  unfold JoinOwn
  by_cases hroom : s.trunk.own.length < 4
  · have hput : u.trunk.own = s.trunk.own ++ [cell] := by
      rw [hown, List.take_of_length_le (by simp; omega)]
    have hlength : u.trunk.own.length = s.trunk.own.length + 1 := by rw [hput, List.length_append]; rfl
    obtain ⟨k, hk⟩ : ∃ k, 4 - s.trunk.own.length = k + 1 := ⟨3 - s.trunk.own.length, by omega⟩
    refine ⟨?_, hrelay'.trans hrelay, ?_, ?_, ?_⟩
    · rw [hown', hlength, hput, hk, List.take_succ_cons, show 4 - (s.trunk.own.length + 1) = k by omega,
        List.append_assoc, List.singleton_append]
    · rw [hdrop', hdrop, hlength, decide_eq_false (by simp; omega), Bool.or_false, List.length_cons]
      congr 2
      exact propext ⟨fun h => by omega, fun h => by omega⟩
    · rw [hsent.1, hsent.2]
      exact hserved
    · rw [if_pos hroom] at hout ⊢
      split at hout'
      next => exact hout'
      next hfull =>
        refine ReturnOutSends.congr hout hrate hsent.1 hrelay' ?_ hout'
        rw [hown', Nat.sub_eq_zero_of_le (by omega), List.take_zero, List.append_nil]
  · have hput : u.trunk.own = s.trunk.own := by
      rw [hown, Nat.sub_eq_zero_of_le (by omega), List.take_zero, List.append_nil]
    refine ⟨?_, hrelay'.trans hrelay, ?_, ?_, ?_⟩
    · rw [hown', hput, Nat.sub_eq_zero_of_le (by omega)]
      rfl
    · rw [hdrop', hdrop, decide_eq_true (by simp; omega), decide_eq_true (p := 4 < s.trunk.own.length + _)
        (by rw [List.length_cons]; omega), Bool.or_true, Bool.true_or]
    · rw [hsent.1, hsent.2]
      exact hserved
    · rw [if_neg hroom] at hout ⊢
      rw [hput, if_neg hroom] at hout'
      exact hout'.trans hout

theorem joinOwn_rateCode (s : State) (cell : List Byte) : (joinOwn s cell).trunk.rateCode = s.trunk.rateCode := by
  unfold joinOwn
  split
  · simp
  · rfl

theorem foldl_joinOwn_rateCode (cells : List (List Byte)) (s : State) :
    (cells.foldl joinOwn s).trunk.rateCode = s.trunk.rateCode :=
  List.foldlRecOn cells joinOwn (motive := fun u => u.trunk.rateCode = s.trunk.rateCode) rfl fun u hu cell _ =>
    (joinOwn_rateCode u cell).trans hu

/-- Cells join one after the other. -/
theorem foldl_joinOwn_joins {cells : List (List Byte)} (h : cells ≠ []) (s : State) :
    JoinOwn cells s.mgmt.flags.replyDrop s (cells.foldl joinOwn s) := by
  induction cells generalizing s with
  | nil => exact absurd rfl h
  | cons cell rest ih =>
    cases rest with
    | nil => exact joinOwn_joins s cell
    | cons next rest =>
      exact joinOwn_cons (joinOwn_joins s cell) (ih (by simp) _)
        (foldl_joinOwn_rateCode (next :: rest) (joinOwn s cell))

/-- A joining cell leaves the record, the count, the other flags and the trunk counts as they were. -/
def RecordStands (s t : State) : Prop :=
  { t.mgmt.flags with replyDrop := s.mgmt.flags.replyDrop } = s.mgmt.flags ∧ t.mgmt.refusal = s.mgmt.refusal ∧
    t.mgmt.refusals = s.mgmt.refusals ∧ t.trunk.abandoned = s.trunk.abandoned ∧
    t.trunk.checkFailures = s.trunk.checkFailures

theorem RecordStands.trans {s u t : State} (h : RecordStands s u) (h' : RecordStands u t) : RecordStands s t := by
  obtain ⟨hflags, hrefusal, hcount, ha, hc⟩ := h
  obtain ⟨hflags', hrefusal', hcount', ha', hc'⟩ := h'
  exact ⟨(congrArg (fun flags : Flags => { flags with replyDrop := s.mgmt.flags.replyDrop }) hflags').trans hflags,
    hrefusal'.trans hrefusal, hcount'.trans hcount, ha'.trans ha, hc'.trans hc⟩

theorem joinOwn_record (s : State) (cell : List Byte) : RecordStands s (joinOwn s cell) := by
  by_cases hroom : s.trunk.own.length < 4
  · rw [joinOwn_of_room hroom]
    have hfields := arbitrate_fields { s.trunk with own := s.trunk.own ++ [cell] }
    obtain ⟨-, -, -, -, -, -, -, -, ha, hc, -⟩ := hfields
    exact ⟨rfl, rfl, rfl, ha, hc⟩
  · rw [joinOwn_of_full hroom]
    exact ⟨rfl, rfl, rfl, rfl, rfl⟩

theorem foldl_joinOwn_record (cells : List (List Byte)) (s : State) : RecordStands s (cells.foldl joinOwn s) :=
  List.foldlRecOn cells joinOwn (motive := RecordStands s) ⟨rfl, rfl, rfl, rfl, rfl⟩ fun _ hu _ _ =>
    hu.trans (joinOwn_record _ _)

/-! ### Queries (R179 to R181) -/

/-- The characters of a REPORT cell of one part (R165, R185). -/
theorem reportCell_eq (node : Fin 128) (kind item : Nat) (contents : List Byte) :
    reportCell node kind item 1 1 contents =
      [0x60, BitVec.ofNat 8 node.val, BitVec.ofNat 8 (4 + contents.length), BitVec.ofNat 8 kind, BitVec.ofNat 8 item, 1, 1] ++
        contents ++ [checkOf ((reportCell node kind item 1 1 contents).take (contents.length + 7))] := by
  have hbody : (reportCell node kind item 1 1 contents).take (contents.length + 7) =
      bytes1 0x60 ++ bytes1 node.val ++ bytes1 (4 + contents.length) ++ bytes1 kind ++ bytes1 item ++ bytes1 1 ++ bytes1 1 ++
        contents := by
    unfold reportCell withCheck
    rw [List.take_append_of_le_length (by simp; omega), List.take_of_length_le (by simp; omega)]
  rw [hbody]
  rfl

/-- An answer: its cell is good, and joins. -/
theorem answer_joins (kind item : Nat) {contents : List Byte} {n : Nat} (hlen : contents.length = n) (hn : n ≤ 246) (s : State) :
    ∃ cell, GoodCell cell ∧
      cell = [0x60, BitVec.ofNat 8 s.trunk.node.val, BitVec.ofNat 8 (4 + contents.length), BitVec.ofNat 8 kind,
        BitVec.ofNat 8 item, 1, 1] ++ contents ++ [checkOf (cell.take (contents.length + 7))] ∧
      JoinOwn [cell] s.mgmt.flags.replyDrop s (answer kind item contents s) :=
  ⟨_, reportCell_good _ _ _ _ _ (hlen ▸ hn), reportCell_eq _ _ _ _, joinOwn_joins _ _⟩

theorem takeQueryPanel_of (p : Fin 16) (s : State) :
    takeQueryPanel p.val s = answer 2 p.val (panelContents s p) (s.useFree 1) := by
  unfold takeQueryPanel
  rw [finOf?_val]

/-- Settles O45: the five reports go through `answer_joins`; every other QUERY is refused. -/
theorem queryJoinsItsReportToTheOwnQueue : Obligations.QueryJoinsItsReportToTheOwnQueue := by
  refine ⟨fun item s row hrow hitem => ?_, fun kind item s hkind => ?_, fun item s => ⟨fun hitem => ?_, fun hitem => ?_,
    fun hitem c hc => ?_⟩⟩
  · have hrecord (kind item : Nat) (contents : List Byte) (u : State) : RecordStands u (answer kind item contents u) :=
      joinOwn_record u _
    simp only [List.mem_cons, List.not_mem_nil, or_false] at hrow
    obtain rfl | rfl | rfl | rfl | rfl := hrow
    · obtain ⟨cell, hgood, hcell, hjoin⟩ := answer_joins 0 0 (length_deviceContents s) (by decide) (clearReported (s.useFree 2))
      obtain ⟨hflags, hrest⟩ := hrecord 0 0 (deviceContents s) (clearReported (s.useFree 2))
      exact ⟨_, cell, _, rfl, length_deviceContents s, hgood, hcell, hjoin, ⟨hflags, hrest⟩, takeQuery_changes 0 0 s⟩
    · obtain ⟨p, rfl⟩ : ∃ p : Fin 16, p.val = item := ⟨⟨item, by omega⟩, rfl⟩
      obtain ⟨cell, hgood, hcell, hjoin⟩ := answer_joins 2 p.val (length_panelContents s p) (by decide) (s.useFree 1)
      exact ⟨_, cell, _, congrArg Host.Outcome.next (takeQueryPanel_of p s), length_panelContents s p, hgood, hcell, hjoin,
        hrecord _ _ _ (s.useFree 1), takeQueryPanel_of p s ▸ takeQuery_changes 2 p.val s⟩
    · obtain ⟨cell, hgood, hcell, hjoin⟩ := answer_joins 3 0 (length_bankContents s) (by decide) s
      exact ⟨_, cell, _, rfl, length_bankContents s, hgood, hcell, hjoin, hrecord _ _ _ s, takeQuery_changes 3 0 s⟩
    · obtain ⟨cell, hgood, hcell, hjoin⟩ := answer_joins 4 0 (length_inputsContents s) (by decide) s
      exact ⟨_, cell, _, rfl, length_inputsContents s, hgood, hcell, hjoin, hrecord _ _ _ s, takeQuery_changes 4 0 s⟩
    · obtain ⟨cell, hgood, hcell, hjoin⟩ := answer_joins 5 0 (length_settingsContents s) (by decide) s
      exact ⟨_, cell, _, rfl, length_settingsContents s, hgood, hcell, hjoin, hrecord _ _ _ s, takeQuery_changes 5 0 s⟩
  · exact ⟨_, congrArg Host.Outcome.next (takeQuery_unknown hkind item s), refuse_refusedOnly s _ _⟩
  · have hrefused : takeQueryBoard item s = s.refuse queryKind .badField := by
      unfold takeQueryBoard
      rw [finOf?_eq_none.mpr hitem]
    exact ⟨_, congrArg Host.Outcome.next hrefused, refuse_refusedOnly s _ _⟩
  · have hrefused : takeQueryPanel item s = s.refuse queryKind .badField := by
      unfold takeQueryPanel
      rw [finOf?_eq_none.mpr hitem]
    exact ⟨_, congrArg Host.Outcome.next hrefused, refuse_refusedOnly s _ _⟩
  · have hrefused (taken : State) : (if item = 0 then taken else s.refuse queryKind .badField) = s.refuse queryKind .badField :=
      if_neg hitem
    simp only [List.mem_cons, List.not_mem_nil, or_false] at hc
    obtain rfl | rfl | rfl | rfl := hc <;>
      exact ⟨_, congrArg Host.Outcome.next (hrefused _), refuse_refusedOnly s _ _⟩

end Sys2Proof.Machine

/-! Reports read back from their cells (R67, R164, R176, R179, R181, R186, R188). -/

namespace Sys2Proof.Machine

open Claims

/-! ### Fields of a cell (R184) -/

/-- A list of bytes stands in another at a place. -/
def StandsAt (big : List Byte) (at_ : Nat) (small : List Byte) : Prop :=
  ∀ j, j < small.length → byteAt big (at_ + j) = byteAt small j

section
variable {big small : List Byte} {at_ : Nat}

theorem StandsAt.trans {mid : List Byte} {inner : Nat} (h : StandsAt big at_ mid) (h' : StandsAt mid inner small)
    (hfits : inner + small.length ≤ mid.length) : StandsAt big (at_ + inner) small := fun j hj => by
  rw [Nat.add_assoc, h _ (by omega), h' j hj]

theorem StandsAt.word (h : StandsAt big at_ small) {i : Nat} (hi : i + 1 < small.length) :
    wordAt big (at_ + i) = wordAt small i := by
  unfold wordAt
  rw [Nat.add_assoc, h _ (by omega), h _ hi]

theorem StandsAt.triple (h : StandsAt big at_ small) {i : Nat} (hi : i + 2 < small.length) :
    tripleAt big (at_ + i) = tripleAt small i := by
  unfold tripleAt
  rw [h.word (by omega), Nat.add_assoc, h _ hi]

theorem StandsAt.quad (h : StandsAt big at_ small) {i : Nat} (hi : i + 3 < small.length) :
    quadAt big (at_ + i) = quadAt small i := by
  unfold quadAt
  rw [h.triple (by omega), Nat.add_assoc, h _ hi]

/-- A code of a list that stands in another names what it named there. -/
theorem StandsAt.code {α : Type} (h : StandsAt big at_ small) {l : List α} {a : α} {k n : Nat} (hk : k < small.length)
    (hn : byteAt small k = n) (hl : l[n]? = some a) : l[byteAt big (at_ + k)]? = some a := by
  rw [h k hk, hn]
  exact hl

theorem standsAt_append (before : List Byte) (small after : List Byte) :
    StandsAt (before ++ small ++ after) before.length small := fun j hj => by
  rw [byteAt_append_left (by simp; omega), byteAt_append_right]

/-- Where each element of a list is spelled in as many bytes, each stands at its place. -/
theorem standsAt_flatMap {α : Type} {f : α → List Byte} {n : Nat} (hf : ∀ a, (f a).length = n) {l : List α} {i : Nat} {a : α}
    (h : l[i]? = some a) : StandsAt (l.flatMap f) (n * i) (f a) := by
  induction l generalizing i with
  | nil => simp at h
  | cons x rest ih =>
    rw [List.flatMap_cons]
    cases i with
    | zero =>
      obtain rfl : x = a := by simpa using h
      exact fun j hj => by rw [Nat.mul_zero, Nat.zero_add, byteAt_append_left hj]
    | succ i =>
      intro j hj
      rw [Nat.mul_succ, show n * i + n + j = (f x).length + (n * i + j) by rw [hf]; omega, byteAt_append_right]
      exact ih (by simpa using h) j hj

end

theorem byteAt_bytes1_mod (n : Nat) : byteAt (bytes1 n) 0 = n % 256 := rfl

theorem wordAt_bytes2_mod (n : Nat) : wordAt (bytes2 n) 0 = n % 65536 := by
  show n / 256 % 256 * 256 + n % 256 = n % 65536
  omega

theorem tripleAt_bytes3_mod (n : Nat) : tripleAt (bytes3 n) 0 = n % 16777216 := by
  show (n / 65536 % 256 * 256 + n / 256 % 256) * 256 + n % 256 = n % 16777216
  omega

theorem quadAt_bytes4_mod (n : Nat) : quadAt (bytes4 n) 0 = n % 4294967296 := by
  show ((n / 16777216 % 256 * 256 + n / 65536 % 256) * 256 + n / 256 % 256) * 256 + n % 256 = n % 4294967296
  omega

/-! ### Codes (R188) -/

theorem mode_of_code (m : DeviceMode) : [DeviceMode.run, .night, .test][m.code % 256]? = some m := by cases m <;> rfl

theorem clockState_of_code (c : ClockState) : [ClockState.unset, .synced, .drifting, .held][c.code % 256]? = some c := by
  cases c <;> rfl

theorem bankId_of_code (x : BankId) : [BankId.a, .b][x.code % 256]? = some x := by cases x <;> rfl

theorem standby_of_code (x : StandbyState) :
    [StandbyState.clean, .loaded, .copying, .faulted][x.code % 256]? = some x := by cases x <;> rfl

theorem mark_of_code (b : Bool) : [false, true][boolCode b % 256]? = some b := by cases b <;> rfl

theorem reason_of_code (r : Reason) :
    [none, some Reason.badKind, some .badLength, some .badField, some .badIndex, some .poolFull, some .bankBusy,
      some .bankFaulted, some .slotLocked, some .stillActive][r.code % 256]? = some (some r) := by cases r <;> rfl

theorem panelState_of_code (x : PanelState) :
    [PanelState.absent, .starting, .online, .fault][x.code % 256]? = some x := by cases x <;> rfl

theorem viewCommand_of_code (c : Option ViewCommand) :
    [none, some ViewCommand.blank, some .unblank][viewCommandCode c % 256]? = some c := by
  rcases c with _ | _ | _ <;> rfl

theorem busState_of_code (x : BusState) : [BusState.idle, .sending, .awaiting, .held][x.code % 256]? = some x := by
  cases x <;> rfl

theorem view_of_code (v : PanelView) :
    [PanelView.normal, .emergency, .blank, .test, .fallback][viewCode (some v) % 256]? = some v := by cases v <;> rfl

theorem level_of_code (x : Level) : [Level.low, .high][levelCode x % 256]? = some x := by cases x <;> rfl

theorem contactState_of_code (x : ContactState) : [ContactState.disabled, .settling, .watching][x.code % 256]? = some x := by
  cases x <;> rfl

theorem sensorState_of_code (x : SensorState) : [SensorState.good, .failed][x.code % 256]? = some x := by cases x <;> rfl

theorem levelSource_of_code (x : LevelSource) : [LevelSource.curve, .fallback][x.code % 256]? = some x := by cases x <;> rfl

/-! ### Flags (R188) -/

/-- The bits of marks written one over the other. -/
theorem testBit_foldr_marks (marks : List Bool) (i : Nat) :
    (marks.foldr (fun mark acc => 2 * acc + boolCode mark) 0).testBit i = marks.getD i false := by
  induction marks generalizing i with
  | nil => simp
  | cons mark rest ih =>
    rw [List.foldr_cons]
    have hhalf (n : Nat) : (2 * n + boolCode mark) / 2 = n := by cases mark <;> simp [boolCode] <;> omega
    have hlow (n : Nat) : (2 * n + boolCode mark) % 2 = boolCode mark := by cases mark <;> simp [boolCode]
    cases i with
    | zero =>
      rw [Nat.testBit_zero, hlow]
      cases mark <;> rfl
    | succ i =>
      rw [Nat.testBit_succ, hhalf, ih]
      rfl

/-- Bit b of the overflow byte is board b's mark. -/
theorem testBit_overflow (f : Flags) (b : Fin 8) : (f.overflowCode % 256).testBit b.val = f.overflow.get b := by
  rw [show 256 = 2 ^ 8 from rfl, Nat.testBit_mod_two_pow, decide_eq_true b.isLt, Bool.true_and]
  unfold Flags.overflowCode
  rw [testBit_foldr_marks, Vec.toList_eq_ofFn, List.getD_eq_getElem?_getD, List.getElem?_ofFn]
  simp

/-- The low bits of a byte whose others are free. -/
theorem testBit_masked (code : Nat) (free mask : Byte) {i : Nat} (hmask : mask.getLsbD i = false) (hi : i < 8) :
    (BitVec.ofNat 8 code ||| (free &&& mask)).toNat.testBit i = code.testBit i := by
  rw [BitVec.testBit_toNat, BitVec.getLsbD_or, BitVec.getLsbD_and, hmask, Bool.and_false, Bool.or_false, BitVec.getLsbD_ofNat,
    decide_eq_true hi, Bool.true_and]

/-- The low six bits of the flags byte, whatever the free byte holds. -/
theorem testBit_flags (code : Nat) (free : Byte) {i : Nat} (hi : i < 6) :
    (BitVec.ofNat 8 code ||| (free &&& 0xC0)).toNat.testBit i = code.testBit i := by
  have hmask : (0xC0 : Byte).getLsbD i = false := by
    have : i = 0 ∨ i = 1 ∨ i = 2 ∨ i = 3 ∨ i = 4 ∨ i = 5 := by omega
    rcases this with rfl | rfl | rfl | rfl | rfl | rfl <;> rfl
  exact testBit_masked code free 0xC0 hmask (by omega)

theorem testBit_flagsCode (f : Flags) :
    f.code.testBit 0 = f.fwdDrop ∧ f.code.testBit 1 = f.relayDrop ∧ f.code.testBit 2 = f.replyDrop ∧
      f.code.testBit 3 = f.newDay ∧ f.code.testBit 4 = f.pulseDiscord ∧ f.code.testBit 5 = f.settingClamped := by
  have hcode : f.code = [f.fwdDrop, f.relayDrop, f.replyDrop, f.newDay, f.pulseDiscord, f.settingClamped].foldr
      (fun mark acc => 2 * acc + boolCode mark) 0 := by
    unfold Flags.code
    simp only [List.foldr]
    omega
  simp only [hcode, testBit_foldr_marks]
  exact ⟨rfl, rfl, rfl, rfl, rfl, rfl⟩

/-! ### The cell that joins -/

theorem answer_own {s : State} (h : s.trunk.own.length < 4) (kind item : Nat) (contents : List Byte) :
    (answer kind item contents s).trunk.own = s.trunk.own ++ [reportCell s.trunk.node kind item 1 1 contents] := by
  unfold answer
  rw [joinOwn_of_room h]
  exact (arbitrate_fields _).2.2.2.2.2.1

/-- A report's contents stand behind seven characters (R165, R185). -/
theorem reportCell_standsAt (node : Fin 128) (kind item part parts : Nat) (contents : List Byte) :
    StandsAt (reportCell node kind item part parts contents) 7 contents :=
  standsAt_append (bytes1 0x60 ++ bytes1 node.val ++ bytes1 (4 + contents.length) ++ bytes1 kind ++ bytes1 item ++
    bytes1 part ++ bytes1 parts) contents _

/-! ### Contents read back -/

theorem byteAt_optionCode (o : Option Nat) : byteAt (bytes1 (o.getD 0)) 0 = o.getD 0 % 256 := rfl

/-- The bytes of a DEVICE report one by one (R188). -/
theorem deviceContents_eq (s : State) : deviceContents s =
    [BitVec.ofNat 8 s.trunk.node.val, BitVec.ofNat 8 s.trunk.rateCode.val, BitVec.ofNat 8 s.mgmt.mode.code,
      BitVec.ofNat 8 s.clock.state.code, BitVec.ofNat 8 (s.clock.value / 65536), BitVec.ofNat 8 (s.clock.value / 256),
      BitVec.ofNat 8 s.clock.value, BitVec.ofNat 8 (s.clock.age / 256), BitVec.ofNat 8 s.clock.age,
      BitVec.ofNat 8 s.tables.active.code, BitVec.ofNat 8 s.tables.standby.code,
      BitVec.ofNat 8 (boolCode s.tables.swapPending), BitVec.ofNat 8 (boolCode s.trunk.silent),
      BitVec.ofNat 8 (s.trunk.silence / 256), BitVec.ofNat 8 s.trunk.silence, s.free 0,
      BitVec.ofNat 8 s.mgmt.flags.code ||| (s.free 1 &&& 0xC0), BitVec.ofNat 8 s.mgmt.flags.overflowCode,
      BitVec.ofNat 8 s.trunk.abandoned, BitVec.ofNat 8 s.trunk.checkFailures,
      BitVec.ofNat 8 ((s.mgmt.refusal.map Prod.fst).getD 0), BitVec.ofNat 8 ((s.mgmt.refusal.map fun r => r.2.code).getD 0),
      BitVec.ofNat 8 s.mgmt.refusals] := by
  simp only [deviceContents, bytes1, bytes2, bytes3, List.cons_append, List.nil_append]

/-- A bank's part of a BANK report. -/
theorem bankReport_spelled (b : Bank) : BankSpelled b.report 0 b := by
  refine ⟨wordAt_bytes2_mod _, wordAt_bytes2_mod _, wordAt_bytes2_mod _, wordAt_bytes2_mod _, wordAt_bytes2_mod _,
    wordAt_bytes2_mod _, ?_, wordAt_bytes2_mod _, wordAt_bytes2_mod _, wordAt_bytes2_mod _⟩
  refine (wordAt_bytes2_mod (boolCode b.curve.isSome)).trans ?_
  cases b.curve with
  | none => rfl
  | some curve => rfl

theorem BankSpelled.standsAt {big : List Byte} {at_ : Nat} {b : Bank} (h : StandsAt big at_ b.report) : BankSpelled big at_ b := by
  have hlen := length_bankReport b
  obtain ⟨h0, h2, h4, h6, h8, h10, h12, h14, h16, h18⟩ := bankReport_spelled b
  have word (i : Nat) (hi : i + 1 < 20) : wordAt big (at_ + i) = wordAt b.report i := h.word (hlen.symm ▸ hi)
  exact ⟨(word 0 (by decide)).trans h0, (word 2 (by decide)).trans h2, (word 4 (by decide)).trans h4,
    (word 6 (by decide)).trans h6, (word 8 (by decide)).trans h8, (word 10 (by decide)).trans h10,
    (word 12 (by decide)).trans h12, (word 14 (by decide)).trans h14, (word 16 (by decide)).trans h16,
    (word 18 (by decide)).trans h18⟩

theorem bankContents_standsAt (s : State) :
    StandsAt (bankContents s) 3 s.tables.bankA.report ∧ StandsAt (bankContents s) 23 s.tables.bankB.report := by
  refine ⟨standsAt_append _ _ _, ?_⟩
  have h := standsAt_append (bytes1 s.tables.active.code ++ bytes1 s.tables.standby.code ++
    bytes1 (boolCode s.tables.swapPending) ++ s.tables.bankA.report) s.tables.bankB.report []
  rw [List.append_nil, List.length_append, length_bankReport] at h
  exact h

theorem panelContents_of {s : State} {p : Fin 16} {row : PanelRow} (h : s.scene.panel p = some row) :
    panelContents s p = bytes1 (s.panelRecord p).state.code ++ bytes1 (viewCode (s.disp.seq.views.get p)) ++
      bytes1 (s.panelRecord p).failures ++ bytes1 (viewCommandCode (s.panelRecord p).viewCommand) ++
      bytes1 (boolCode (s.panelRecord p).palettePending) ++ bytes1 (s.buses.get row.bus).state.code ++
      bytes1 (s.disp.lines.dirty.get p).length ++ bytes1 (s.light.levelOf row) := by
  unfold panelContents
  rw [h]

theorem panelContents_absent {s : State} {p : Fin 16} (h : s.scene.panel p = none) :
    panelContents s p = [0, 255, 0, 0, 0, 255, 0, s.free 0] := by
  unfold panelContents
  rw [h]

theorem levelOf_sensor {l : LightUnit} {row : PanelRow} {n : Fin 4} (h : row.dim = .sensor n) :
    l.levelOf row = (l.groups.get n).level := by
  unfold LightUnit.levelOf
  rw [h]

theorem levelOf_fixed {l : LightUnit} {row : PanelRow} {level : Nat} (h : row.dim = .fixed level) : l.levelOf row = level := by
  unfold LightUnit.levelOf
  rw [h]

theorem inputsContents_standsAt (s : State) (n : Fin 4) :
    StandsAt (inputsContents s) (4 * n.val) (s.contacts.get n).report ∧
      StandsAt (inputsContents s) (16 + 7 * n.val) (sensorReport (s.light.sensors.get n) (s.light.groups.get n)) := by
  have hcontacts : (s.contacts.toList.flatMap Contact.report).length = 16 := by
    rw [length_flatMap_of_length length_contactReport, s.contacts.size_eq]
  have hcontact : s.contacts.toList[n.val]? = some (s.contacts.get n) := by
    rw [Vec.toList_eq_ofFn, List.getElem?_ofFn]
    simp
  have hsensor : (List.finRange 4)[n.val]? = some n := by simp
  have hinner := standsAt_flatMap length_contactReport hcontact
  have hlast := standsAt_flatMap (f := fun n => sensorReport (s.light.sensors.get n) (s.light.groups.get n))
    (fun n => length_sensorReport _ _) hsensor
  constructor
  · intro j hj
    rw [length_contactReport] at hj
    unfold inputsContents
    rw [byteAt_append_left (by rw [hcontacts]; omega)]
    exact hinner j (by rw [length_contactReport]; exact hj)
  · intro j hj
    unfold inputsContents
    rw [Nat.add_assoc, ← hcontacts, byteAt_append_right]
    exact hlast j hj

/-- The 38 values of a SETTINGS report. -/
theorem settings_values (st : Settings) : st.values = settingValues st := by
  unfold Settings.values settingValues
  rw [Vec.toList_eq_ofFn]
  have hfour : List.ofFn st.contacts.get = (List.finRange 4).map st.contacts.get := List.ofFn_eq_map
  rw [hfour, List.flatMap_map]
  congr 1
  refine congrArg (fun f => (List.finRange 4).flatMap f) (funext fun n => ?_)
  generalize st.contacts.get n = c
  obtain ⟨enable, mode, polarity, filter, mask, string⟩ := c
  cases mode <;> cases polarity <;> rfl

theorem settingsContents_quad (s : State) {k v : Nat} (h : (settingValues s.settings)[k]? = some v) :
    StandsAt (settingsContents s) (4 * k) (bytes4 v) := by
  unfold settingsContents
  rw [settings_values]
  exact standsAt_flatMap length_bytes4 h

/-- Settles O46, a report at a time. -/
theorem reportsReadBack : Obligations.ReportsReadBack := by
  refine ⟨fun s hroom => ?_, fun p s hroom => ?_, fun s hroom => ?_, fun s hroom => ?_, fun s hroom => ?_⟩
  · refine ⟨_, reportCell s.trunk.node 0 0 1 1 (deviceContents s), rfl, answer_own (s := clearReported (s.useFree 2)) hroom 0 0 _,
      ?_⟩
    have hcell := reportCell_standsAt s.trunk.node 0 0 1 1 (deviceContents s)
    generalize reportCell s.trunk.node 0 0 1 1 (deviceContents s) = cell at hcell
    rw [deviceContents_eq] at hcell
    obtain ⟨h0, h1, h2, h3, h4, h5⟩ := testBit_flagsCode s.mgmt.flags
    have c (k : Nat) (hk : k < 23) := hcell k hk
    have word (k : Nat) (hk : k + 1 < 23) := hcell.word (i := k) hk
    have triple (k : Nat) (hk : k + 2 < 23) := hcell.triple (i := k) hk
    have hflags {i : Nat} (hi : i < 6) : (byteAt cell 23).testBit i = s.mgmt.flags.code.testBit i := by
      have hbyte : byteAt cell 23 = (BitVec.ofNat 8 s.mgmt.flags.code ||| (s.free 1 &&& 0xC0)).toNat := c 16 (by decide)
      rw [hbyte]
      exact testBit_flags _ _ hi
    refine ⟨?_, ?_, ?_, ?_, ?_, ?_, ?_, ?_, ?_, ?_, ?_, ?_, ?_, ?_, ?_, ?_, ?_, fun b => ?_, ?_, ?_, fun hnone => ⟨?_, ?_⟩,
      fun kind reason hsome => ⟨?_, ?_⟩, ?_⟩
    · exact (c 0 (by decide)).trans (Nat.mod_eq_of_lt (by omega : s.trunk.node.val < 256))
    · exact (c 1 (by decide)).trans (Nat.mod_eq_of_lt (by omega : s.trunk.rateCode.val < 256))
    · exact hcell.code (k := 2) (by decide : _ < 23) rfl (mode_of_code _)
    · exact hcell.code (k := 3) (by decide : _ < 23) rfl (clockState_of_code _)
    · exact (triple 4 (by decide)).trans (tripleAt_bytes3_mod _)
    · exact (word 7 (by decide)).trans (wordAt_bytes2_mod _)
    · exact hcell.code (k := 9) (by decide : _ < 23) rfl (bankId_of_code _)
    · exact hcell.code (k := 10) (by decide : _ < 23) rfl (standby_of_code _)
    · exact hcell.code (k := 11) (by decide : _ < 23) rfl (mark_of_code _)
    · exact hcell.code (k := 12) (by decide : _ < 23) rfl (mark_of_code _)
    · exact (word 13 (by decide)).trans (wordAt_bytes2_mod _)
    · exact (hflags (by decide)).trans h0
    · exact (hflags (by decide)).trans h1
    · exact (hflags (by decide)).trans h2
    · exact (hflags (by decide)).trans h3
    · exact (hflags (by decide)).trans h4
    · exact (hflags (by decide)).trans h5
    · have hbyte : byteAt cell 24 = s.mgmt.flags.overflowCode % 256 := c 17 (by decide)
      rw [hbyte]
      exact testBit_overflow _ b
    · exact c 18 (by decide)
    · exact c 19 (by decide)
    · exact (c 20 (by decide)).trans (congrArg (fun r : Option (Nat × Reason) => (r.map Prod.fst).getD 0 % 256) hnone)
    · exact (c 21 (by decide)).trans (congrArg (fun r : Option (Nat × Reason) => (r.map fun r => r.2.code).getD 0 % 256) hnone)
    · exact (c 20 (by decide)).trans (congrArg (fun r : Option (Nat × Reason) => (r.map Prod.fst).getD 0 % 256) hsome)
    · have hreason : byteAt cell 28 = reason.code % 256 := (c 21 (by decide)).trans
        (congrArg (fun r : Option (Nat × Reason) => (r.map fun r => r.2.code).getD 0 % 256) hsome)
      rw [hreason]
      exact reason_of_code reason
    · exact c 22 (by decide)
  · refine ⟨_, reportCell s.trunk.node 2 p.val 1 1 (panelContents s p), congrArg Host.Outcome.next (takeQueryPanel_of p s),
      answer_own (s := s.useFree 1) hroom 2 p.val _, fun row hrow => ?_, fun hnone => ?_⟩
    · rw [panelContents_of hrow]
      refine ⟨panelState_of_code _, ?_, rfl, viewCommand_of_code _, mark_of_code _, busState_of_code _, rfl,
        fun n hn => congrArg (· % 256) (levelOf_sensor hn), fun level hlevel => congrArg (· % 256) (levelOf_fixed hlevel)⟩
      cases s.disp.seq.views.get p with
      | none => rfl
      | some v => exact view_of_code v
    · rw [panelContents_absent hnone]
      exact ⟨rfl, rfl, rfl, rfl, rfl, rfl, rfl⟩
  · have hcell := reportCell_standsAt s.trunk.node 3 0 1 1 (bankContents s)
    obtain ⟨ha, hb⟩ := bankContents_standsAt s
    have hlen := length_bankContents s
    exact ⟨_, reportCell s.trunk.node 3 0 1 1 (bankContents s), rfl, answer_own hroom 3 0 _, bankId_of_code _, standby_of_code _,
      mark_of_code _, BankSpelled.standsAt (hcell.trans ha (by rw [length_bankReport, hlen]; decide)),
      BankSpelled.standsAt (hcell.trans hb (by rw [length_bankReport, hlen]))⟩
  · refine ⟨_, reportCell s.trunk.node 4 0 1 1 (inputsContents s), rfl, answer_own hroom 4 0 _, fun n => ?_⟩
    have hcell := reportCell_standsAt s.trunk.node 4 0 1 1 (inputsContents s)
    obtain ⟨hcontact, hsensor⟩ := inputsContents_standsAt s n
    have hlen := length_inputsContents s
    have hc := hcell.trans hcontact (by rw [length_contactReport, hlen]; omega)
    have hx := hcell.trans hsensor (by rw [length_sensorReport, hlen]; omega)
    rw [show 7 + (16 + 7 * n.val) = 23 + 7 * n.val by omega] at hx
    generalize reportCell s.trunk.node 4 0 1 1 (inputsContents s) = cell at hc hx
    dsimp only
    have hclen {j : Nat} (hj : j < 4) : j < (s.contacts.get n).report.length :=
      hj.trans_eq (length_contactReport _).symm
    have hxlen {j : Nat} (hj : j < 7) : j < (sensorReport (s.light.sensors.get n) (s.light.groups.get n)).length :=
      hj.trans_eq (length_sensorReport _ _).symm
    have x (j : Nat) (hj : j < 7) := hx j (hxlen hj)
    refine ⟨⟨?_, ?_, ?_, ?_⟩, ?_, ?_, ?_, ?_, ?_, ?_, ?_⟩
    · exact hc.code (k := 0) (hclen (by decide)) rfl (level_of_code _)
    · exact hc.code (k := 1) (hclen (by decide)) rfl (level_of_code _)
    · exact hc.code (k := 2) (hclen (by decide)) rfl (contactState_of_code _)
    · exact hc.code (k := 3) (hclen (by decide)) rfl (mark_of_code _)
    · exact hx.code (k := 0) (hxlen (by decide)) rfl (sensorState_of_code _)
    · exact hx.code (k := 1) (hxlen (by decide)) rfl (mark_of_code _)
    · exact x 2 (by decide)
    · exact x 3 (by decide)
    · exact x 4 (by decide)
    · exact x 5 (by decide)
    · exact hx.code (k := 6) (hxlen (by decide)) rfl (levelSource_of_code _)
  · refine ⟨_, reportCell s.trunk.node 5 0 1 1 (settingsContents s), rfl, answer_own hroom 5 0 _, fun k v hv => ?_⟩
    have hbytes := settingsContents_quad s hv
    have hk : k < 38 := by
      have := List.getElem?_eq_some_iff.mp hv
      obtain ⟨hlt, -⟩ := this
      exact hlt
    have hcell := (reportCell_standsAt s.trunk.node 5 0 1 1 (settingsContents s)).trans hbytes
      (by rw [length_settingsContents, length_bytes4]; omega)
    exact (hcell.quad (i := 0) (show 3 < 4 by decide)).trans (quadAt_bytes4_mod v)

end Sys2Proof.Machine

/-! The BOARD report: its parts, and its entries read back in board order (R23, R180, R188). -/

namespace Sys2Proof.Machine

open Claims

/-! ### Pieces of a spelling -/

/-- Of pieces written one behind the other, each stands behind those before it. -/
theorem standsAt_flatten {pieces : List (List Byte)} {k : Nat} {piece : List Byte} (h : pieces[k]? = some piece) :
    StandsAt pieces.flatten (pieces.take k).flatten.length piece := by
  obtain ⟨hk, rfl⟩ := List.getElem?_eq_some_iff.mp h
  have hsplit : pieces.flatten = (pieces.take k).flatten ++ pieces[k] ++ (pieces.drop (k + 1)).flatten := by
    conv_lhs => rw [← List.take_append_drop k pieces, List.drop_eq_getElem_cons hk]
    rw [List.flatten_append, List.flatten_cons, List.append_assoc]
  rw [hsplit]
  exact standsAt_append _ _ _

/-! ### Codes of an entry (R185, R188) -/

theorem statusCodes (x : Status) : CodesStatus (x.code % 256) x := by cases x <;> simp [CodesStatus, Status.code]

theorem shownRole_of_code (x : ShownRole) :
    [none, none, some ShownRole.time, some .delayed, some .cancelled, some .stale][x.colourRole.index % 256]? = some (some x) := by
  cases x <;> rfl

theorem field_spelled (x : TimeField) : x.code % 256 = (fieldSpelling x).1 ∧ x.number = (fieldSpelling x).2 := by
  cases x <;> exact ⟨rfl, rfl⟩

/-- The presence bits (R185). -/
theorem testBit_presence (e : Entry) (free : Byte) :
    (presenceByte e free).toNat.testBit 0 = e.via.isSome ∧ (presenceByte e free).toNat.testBit 1 = e.platform.isSome ∧
      (presenceByte e free).toNat.testBit 2 = e.expected.isSome ∧ (presenceByte e free).toNat.testBit 3 = e.cars.isSome ∧
      (presenceByte e free).toNat.testBit 4 = e.lastService := by
  have hcode : boolCode e.via.isSome + 2 * boolCode e.platform.isSome + 4 * boolCode e.expected.isSome +
      8 * boolCode e.cars.isSome + 16 * boolCode e.lastService =
      [e.via.isSome, e.platform.isSome, e.expected.isSome, e.cars.isSome, e.lastService].foldr
        (fun mark acc => 2 * acc + boolCode mark) 0 := by
    simp only [List.foldr]
    omega
  unfold presenceByte
  rw [hcode]
  exact ⟨(testBit_masked _ free 0xE0 rfl (by decide)).trans (testBit_foldr_marks _ 0),
    (testBit_masked _ free 0xE0 rfl (by decide)).trans (testBit_foldr_marks _ 1),
    (testBit_masked _ free 0xE0 rfl (by decide)).trans (testBit_foldr_marks _ 2),
    (testBit_masked _ free 0xE0 rfl (by decide)).trans (testBit_foldr_marks _ 3),
    (testBit_masked _ free 0xE0 rfl (by decide)).trans (testBit_foldr_marks _ 4)⟩

/-- An optional field read back from its presence bit and its bytes. -/
theorem carriedAs_optionBytes {present : Bool} {value bound : Nat} {field : Option Nat} {enc : Nat → List Byte}
    {absent : List Byte} {read : List Byte → Nat} (hpresent : present = field.isSome)
    (hvalue : value = read (optionBytes enc absent field)) (hread : ∀ v, read (enc v) = v % bound) :
    CarriedAs present value bound field := by
  cases field with
  | none => exact hpresent
  | some v => exact ⟨hpresent, hvalue.trans (hread v)⟩

/-! ### An entry of the report -/

/-- The pieces an entry is spelled in, with the free bytes it may read. -/
def entryPieces (b : Fin 8) (free : Nat → Byte) (e : Entry) : List (List Byte) :=
  [bytes1 b.val, bytes2 e.sid, [presenceByte e (free 0)], bytes2 e.dest, optionBytes bytes2 [free 1, free 2] e.via,
    optionBytes bytes1 [free 3] e.platform, bytes3 e.sched, optionBytes bytes3 [free 4, free 5, free 6] e.expected,
    bytes1 e.status.code, optionBytes bytes1 [free 7] e.cars, bytes2 e.age, bytes1 e.field.code, bytes3 e.field.number,
    bytes1 e.role.colourRole.index]

theorem entryBytes_eq (s : State) (b : Fin 8) (k : Nat) (e : Entry) :
    entryBytes s b k e = (entryPieces b (fun j => s.free (k * entryFree + j)) e).flatten := by
  simp only [entryBytes, entryPieces, List.flatten_cons, List.flatten_nil, List.append_nil, List.append_assoc]

/-- Where an entry's report stands, its fields are read back (R188). -/
def EntrySpelled (cell : List Byte) (at_ : Nat) (b : Fin 8) (e : Entry) : Prop :=
  let present := byteAt cell (at_ + 3)
  byteAt cell at_ = b.val ∧ wordAt cell (at_ + 1) = e.sid ∧ wordAt cell (at_ + 4) = e.dest ∧
    CarriedAs (present.testBit 0) (wordAt cell (at_ + 6)) 65536 e.via ∧
    CarriedAs (present.testBit 1) (byteAt cell (at_ + 8)) 256 e.platform ∧
    tripleAt cell (at_ + 9) = e.sched ∧
    CarriedAs (present.testBit 2) (tripleAt cell (at_ + 12)) 16777216 e.expected ∧
    CodesStatus (byteAt cell (at_ + 15)) e.status ∧
    CarriedAs (present.testBit 3) (byteAt cell (at_ + 16)) 256 e.cars ∧
    present.testBit 4 = e.lastService ∧ wordAt cell (at_ + 17) = e.age ∧
    byteAt cell (at_ + 19) = (fieldSpelling e.field).1 ∧
    tripleAt cell (at_ + 20) = (fieldSpelling e.field).2 % 16777216 ∧
    [none, none, some ShownRole.time, some .delayed, some .cancelled, some .stale][byteAt cell (at_ + 23)]? =
      some (some e.role)

theorem entrySpelled_of_standsAt {cell : List Byte} {at_ : Nat} {b : Fin 8} {free : Nat → Byte} {e : Entry} (he : e.Ok)
    (h : StandsAt cell at_ (entryPieces b free e).flatten) : EntrySpelled cell at_ b e := by
  have hvia : (optionBytes bytes2 [free 1, free 2] e.via).length = 2 := length_optionBytes length_bytes2 rfl _
  have hplatform : (optionBytes bytes1 [free 3] e.platform).length = 1 := length_optionBytes length_bytes1 rfl _
  have hexpected : (optionBytes bytes3 [free 4, free 5, free 6] e.expected).length = 3 :=
    length_optionBytes length_bytes3 rfl _
  have hcars : (optionBytes bytes1 [free 7] e.cars).length = 1 := length_optionBytes length_bytes1 rfl _
  have hlength : (entryPieces b free e).flatten.length = 24 := by
    simp [entryPieces, hvia, hplatform, hexpected, hcars]
  have piece (k n : Nat) {p : List Byte} (hp : (entryPieces b free e)[k]? = some p)
      (hn : ((entryPieces b free e).take k).flatten.length = n) (hfits : n + p.length ≤ 24) : StandsAt cell (at_ + n) p :=
    h.trans (hn ▸ standsAt_flatten hp) (hlength.symm ▸ hfits)
  obtain ⟨-, hsid, hdest, -, -, hsched, -, -, hage⟩ := he
  have hlast : lastSecond = 107999 := rfl
  have hpresence := piece 2 3 rfl rfl (by simp) 0 (by simp)
  obtain ⟨p0, p1, p2, p3, p4⟩ := testBit_presence e (free 0)
  have hbyte : byteAt cell (at_ + 3) = (presenceByte e (free 0)).toNat := hpresence
  unfold EntrySpelled
  dsimp only
  rw [hbyte, p0, p1, p2, p3, p4]
  refine ⟨?_, ?_, ?_, ?_, ?_, ?_, ?_, ?_, ?_, rfl, ?_, ?_, ?_, ?_⟩
  · exact (piece 0 0 rfl rfl (by simp) 0 (by simp)).trans (Nat.mod_eq_of_lt (by omega : b.val < 256))
  · exact ((piece 1 1 rfl rfl (by simp)).word (i := 0) (by simp)).trans (wordAt_bytes2 (by omega))
  · exact ((piece 3 4 rfl rfl (by simp)).word (i := 0) (by simp)).trans (wordAt_bytes2 (by omega))
  · exact carriedAs_optionBytes (read := (wordAt · 0)) rfl
      ((piece 4 6 rfl rfl (by rw [hvia]; decide)).word (i := 0) (by rw [hvia]; decide)) wordAt_bytes2_mod
  · exact carriedAs_optionBytes (read := (byteAt · 0)) rfl
      (piece 5 8 rfl (by simp [entryPieces, hvia]) (by rw [hplatform]; decide) 0 (by rw [hplatform]; decide)) byteAt_bytes1_mod
  · exact ((piece 6 9 rfl (by simp [entryPieces, hvia, hplatform]) (by simp)).triple (i := 0) (by simp)).trans
      (tripleAt_bytes3 (by omega))
  · exact carriedAs_optionBytes (read := (tripleAt · 0)) rfl
      ((piece 7 12 rfl (by simp [entryPieces, hvia, hplatform]) (by rw [hexpected]; decide)).triple (i := 0)
        (by rw [hexpected]; decide)) tripleAt_bytes3_mod
  · rw [show byteAt cell (at_ + 15) = e.status.code % 256 from
      piece 8 15 rfl (by simp [entryPieces, hvia, hplatform, hexpected]) (by simp) 0 (by simp)]
    exact statusCodes _
  · exact carriedAs_optionBytes (read := (byteAt · 0)) rfl
      (piece 9 16 rfl (by simp [entryPieces, hvia, hplatform, hexpected]) (by rw [hcars]; decide) 0 (by rw [hcars]; decide))
      byteAt_bytes1_mod
  · exact ((piece 10 17 rfl (by simp [entryPieces, hvia, hplatform, hexpected, hcars]) (by simp)).word (i := 0) (by simp)).trans
      (wordAt_bytes2 (by omega))
  · exact (piece 11 19 rfl (by simp [entryPieces, hvia, hplatform, hexpected, hcars]) (by simp) 0 (by simp)).trans
      (field_spelled e.field).1
  · rw [← (field_spelled e.field).2]
    exact ((piece 12 20 rfl (by simp [entryPieces, hvia, hplatform, hexpected, hcars]) (by simp)).triple (i := 0)
      (by simp)).trans (tripleAt_bytes3_mod _)
  · exact (piece 13 23 rfl (by simp [entryPieces, hvia, hplatform, hexpected, hcars]) (by simp)).code (k := 0) (by simp) rfl
      (shownRole_of_code _)

/-! ### The cells of the report -/

/-- The part of a BOARD report that holds the eight entries from a multiple of eight on. -/
def boardPart (s : State) (b : Fin 8) (parts k : Nat) : List Byte :=
  reportCell s.trunk.node 1 b.val (k + 1) parts (boardContents s b (8 * k) (((s.boards.get b).drop (8 * k)).take 8))

/-- How many parts a BOARD report has (R180). -/
def partCount (entries : List Entry) : Nat := if entries.length ≤ 8 then 1 else 2

theorem boardCells_eq {s : State} {b : Fin 8} (h : (s.boards.get b).length ≤ 16) :
    boardCells s b = (List.range (partCount (s.boards.get b))).map (boardPart s b (partCount (s.boards.get b))) := by
  unfold boardCells partCount
  dsimp only
  by_cases hfew : (s.boards.get b).length ≤ 8
  · rw [if_pos hfew, if_pos (show (s.boards.get b).length ≤ partSize from hfew)]
    simp [List.range_succ, boardPart, List.take_of_length_le hfew]
  · rw [if_neg hfew, if_neg (show ¬(s.boards.get b).length ≤ partSize from hfew)]
    have hrest : ((s.boards.get b).drop 8).take 8 = (s.boards.get b).drop 8 := List.take_of_length_le (by simp; omega)
    simp [List.range_succ, boardPart, hrest, partSize]

theorem takeQueryBoard_of (b : Fin 8) (s : State) :
    takeQueryBoard b.val s = (boardCells s b).foldl joinOwn (s.useFree (boardSize * entryFree)) := by
  unfold takeQueryBoard
  rw [finOf?_val]

theorem length_reportCell (node : Fin 128) (kind item part parts : Nat) (contents : List Byte) :
    (reportCell node kind item part parts contents).length = contents.length + 8 := by
  simp [reportCell]
  omega

/-- The characters of a REPORT cell before its contents (R165, R185). -/
theorem reportCell_header (node : Fin 128) (kind item part parts : Nat) (contents : List Byte) :
    byteAt (reportCell node kind item part parts contents) 0 = 0x60 ∧
      byteAt (reportCell node kind item part parts contents) 1 = node.val % 256 ∧
      byteAt (reportCell node kind item part parts contents) 3 = kind % 256 ∧
      byteAt (reportCell node kind item part parts contents) 4 = item % 256 ∧
      byteAt (reportCell node kind item part parts contents) 5 = part % 256 ∧
      byteAt (reportCell node kind item part parts contents) 6 = parts % 256 :=
  ⟨rfl, rfl, rfl, rfl, rfl, rfl⟩

theorem length_part (entries : List Entry) (k : Nat) :
    ((entries.drop (8 * k)).take 8).length = min 8 (entries.length - 8 * k) := by simp

/-- Behind its count of entries, a part holds them one by one. -/
theorem boardContents_standsAt (s : State) (b : Fin 8) (first : Nat) {entries : List Entry} {j : Nat} {e : Entry}
    (h : entries[j]? = some e) : StandsAt (boardContents s b first entries) (1 + 24 * j) (entryBytes s b (first + j) e) := by
  have hentry : (entries.zipIdx first)[j]? = some (e, first + j) := by simp [h]
  have hinner := standsAt_flatMap (f := fun e : Entry × Nat => entryBytes s b e.2 e.1) (fun e => length_entryBytes s b e.2 e.1)
    hentry
  intro i hi
  unfold boardContents
  rw [Nat.add_assoc, show 1 + (24 * j + i) = (bytes1 entries.length).length + (24 * j + i) from rfl, byteAt_append_right]
  exact hinner i hi

/-- Settles O47: each part is one `reportCell`, its entries stand one behind the other. -/
theorem boardReportListsTheBoardInOrder : Obligations.BoardReportListsTheBoardInOrder := by
  intro b s hboard
  obtain ⟨hsize, -, -, hentries⟩ := hboard
  have hcells := boardCells_eq hsize
  have hlength : (boardCells s b).length = partCount (s.boards.get b) := by rw [hcells]; simp
  have hpart {k : Nat} {cell : List Byte} (h : (boardCells s b)[k]? = some cell) :
      k < partCount (s.boards.get b) ∧ cell = boardPart s b (partCount (s.boards.get b)) k := by
    rw [hcells, List.getElem?_map, Option.map_eq_some_iff] at h
    obtain ⟨k', hk, rfl⟩ := h
    obtain ⟨hlt, rfl⟩ := List.getElem?_eq_some_iff.mp hk
    simp at hlt ⊢
    exact hlt
  have hcount : partCount (s.boards.get b) = 1 ∨ partCount (s.boards.get b) = 2 := by
    unfold partCount
    split <;> simp
  have hne : boardCells s b ≠ [] := fun h => by rw [h] at hlength; simp at hlength; omega
  obtain ⟨hflags, -⟩ := foldl_joinOwn_record (boardCells s b) (s.useFree (boardSize * entryFree))
  refine ⟨_, boardCells s b, congrArg Host.Outcome.next (takeQueryBoard_of b s),
    foldl_joinOwn_joins hne (s.useFree (boardSize * entryFree)), hflags, hlength, boardCells_good hsize, fun k cell hcell => ?_,
    fun i e he => ?_, ((useFree_changes s _).mono (by decide)).trans
      (OnlyChanges.foldl (fun s c => (joinOwn_changes s c).mono (by decide)) _ _)⟩
  · obtain ⟨hk, rfl⟩ := hpart hcell
    rw [hlength]
    obtain ⟨h0, h1, h3, h4, h5, h6⟩ := reportCell_header s.trunk.node 1 b.val (k + 1) (partCount (s.boards.get b))
      (boardContents s b (8 * k) (((s.boards.get b).drop (8 * k)).take 8))
    refine ⟨h0, h1.trans (Nat.mod_eq_of_lt (by omega)), h3, h4.trans (Nat.mod_eq_of_lt (by omega)),
      h5.trans (Nat.mod_eq_of_lt (by omega)), h6.trans (Nat.mod_eq_of_lt (by omega)), ?_, ?_⟩
    · refine (reportCell_standsAt _ _ _ _ _ _ 0 (by rw [length_boardContents]; omega)).trans ?_
      rw [← length_part]
      exact byteAt_bytes1 (by rw [length_part]; omega)
    · rw [boardPart, length_reportCell, length_boardContents, length_part]
      omega
  · obtain ⟨hi, -⟩ := List.getElem?_eq_some_iff.mp he
    have hk : i / 8 < partCount (s.boards.get b) := by
      have : (s.boards.get b).length ≤ 16 := hsize
      unfold partCount
      split <;> omega
    refine ⟨boardPart s b (partCount (s.boards.get b)) (i / 8), ?_, ?_⟩
    · rw [hcells, List.getElem?_map, List.getElem?_range hk]
      rfl
    · have hentry : (((s.boards.get b).drop (8 * (i / 8))).take 8)[i % 8]? = some e := by
        rw [List.getElem?_take_of_lt (Nat.mod_lt _ (by decide)), List.getElem?_drop, Nat.div_add_mod]
        exact he
      have hinner := boardContents_standsAt s b (8 * (i / 8)) hentry
      have hfits : 1 + 24 * (i % 8) + 24 ≤
          (boardContents s b (8 * (i / 8)) (((s.boards.get b).drop (8 * (i / 8))).take 8)).length := by
        obtain ⟨hlt, -⟩ := List.getElem?_eq_some_iff.mp hentry
        rw [length_boardContents]
        omega
      have hcell := (reportCell_standsAt s.trunk.node 1 b.val (i / 8 + 1) (partCount (s.boards.get b)) _).trans hinner
        (by rw [length_entryBytes]; exact hfits)
      rw [entryBytes_eq, ← Nat.add_assoc] at hcell
      exact entrySpelled_of_standsAt (hentries e (List.mem_of_getElem? he)) hcell

end Sys2Proof.Machine

/-! How texts are set: pens, widths, starts, lines and codes (R41, R69, R75, R77 to R79, R82, R84, R101, R131 to R133). -/

namespace Sys2Proof.Machine

open Claims

/-! ### Pens (R131) -/

/-- A glyph stands at the pen that the present glyphs before it give. -/
theorem mem_penPositions {bank : Bank} {spacing : Nat} {codes : List Nat} {start pen : Int} {g : Glyph} :
    (pen, g) ∈ penPositions bank spacing start codes ↔
      ∃ before c after, codes = before ++ c :: after ∧ bank.glyphs.find c = some g ∧
        pen = start + (((before.filterMap bank.glyphs.find).map fun g => g.width + spacing).sum : Nat) := by
  induction codes generalizing start with
  | nil => simp [penPositions]
  | cons c rest ih =>
    have hsplit (start' : Int) (width : Nat) (hstart : start' = start + width)
        (hwidth : ((([c].filterMap bank.glyphs.find).map fun g => g.width + spacing).sum) = width) :
        (∃ before d after, rest = before ++ d :: after ∧ bank.glyphs.find d = some g ∧
            pen = start' + (((before.filterMap bank.glyphs.find).map fun g => g.width + spacing).sum : Nat)) ↔
          ∃ before d after, rest = before ++ d :: after ∧ bank.glyphs.find d = some g ∧
            pen = start + ((((c :: before).filterMap bank.glyphs.find).map fun g => g.width + spacing).sum : Nat) := by
      refine exists_congr fun before => exists_congr fun d => exists_congr fun after => and_congr_right fun _ =>
        and_congr_right fun _ => ?_
      rw [← List.singleton_append, List.filterMap_append, List.map_append, List.sum_append, hwidth, hstart]
      push_cast
      rw [Int.add_assoc]
    have hcons : (∃ before d after, c :: rest = before ++ d :: after ∧ bank.glyphs.find d = some g ∧
          pen = start + (((before.filterMap bank.glyphs.find).map fun g => g.width + spacing).sum : Nat)) ↔
        (bank.glyphs.find c = some g ∧ pen = start) ∨
          ∃ before d after, rest = before ++ d :: after ∧ bank.glyphs.find d = some g ∧
            pen = start + ((((c :: before).filterMap bank.glyphs.find).map fun g => g.width + spacing).sum : Nat) := by
      constructor
      · rintro ⟨before, d, after, hcodes, hfind, hpen⟩
        cases before with
        | nil =>
          obtain ⟨rfl, -⟩ := List.cons.inj hcodes
          exact .inl ⟨hfind, by simpa using hpen⟩
        | cons b before =>
          obtain ⟨rfl, hrest⟩ := List.cons.inj hcodes
          exact .inr ⟨before, d, after, hrest, hfind, hpen⟩
      · rintro (⟨hfind, hpen⟩ | ⟨before, d, after, hrest, hfind, hpen⟩)
        · exact ⟨[], c, rest, rfl, hfind, by simpa using hpen⟩
        · exact ⟨c :: before, d, after, by rw [hrest]; rfl, hfind, hpen⟩
    rw [hcons]
    cases hfind : bank.glyphs.find c with
    | none =>
      have hskip : penPositions bank spacing start (c :: rest) = penPositions bank spacing start rest := by
        rw [penPositions, hfind]
      rw [hskip, ih, hsplit start 0 (by simp) (by simp [hfind])]
      simp
    | some h =>
      have hset : penPositions bank spacing start (c :: rest) =
          (start, h) :: penPositions bank spacing (start + h.width + spacing) rest := by
        rw [penPositions, hfind]
      rw [hset, List.mem_cons, ih, hsplit _ (h.width + spacing) (by push_cast; omega) (by simp [hfind])]
      refine or_congr ?_ Iff.rfl
      rw [Prod.mk.injEq, Option.some.injEq, eq_comm (a := h)]
      exact and_comm

/-- A pixel is set exactly where a glyph at its pen has that bit in a row it has (R131). -/
theorem sets_iff (bank : Bank) (t : SetText) (x y : Nat) :
    t.sets bank x y = true ↔ t.top ≤ y ∧ y < t.top + t.font.height ∧
      ∃ before c after g, t.codes = before ++ c :: after ∧ bank.glyphs.find c = some g ∧
        (let pen : Int := t.start +
          (((before.filterMap bank.glyphs.find).map fun g => g.width + t.font.spacing).sum : Nat)
         let j := ((x : Int) - pen).toNat
         pen ≤ x ∧ (x : Int) < pen + g.width ∧ y - t.top < g.rowCount ∧
          (byteAt g.rows ((y - t.top) * ((g.width + 7) / 8) + j / 8)).testBit (7 - j % 8) = true) := by
  have hbit (g : Glyph) (r j : Nat) :
      (byteAt g.rows (r * ((g.width + 7) / 8) + j / 8)).testBit (7 - j % 8) = g.pixel r j := BitVec.testBit_toNat _
  unfold SetText.sets glyphSets
  simp only [Bool.and_eq_true, decide_eq_true_eq, List.any_eq_true, Prod.exists, hbit, mem_penPositions, and_assoc]
  refine and_congr_right fun _ => and_congr_right fun _ => ⟨?_, ?_⟩
  · rintro ⟨pen, g, ⟨before, c, after, hcodes, hfind, rfl⟩, hset⟩
    exact ⟨before, c, after, g, hcodes, hfind, hset⟩
  · rintro ⟨before, c, after, g, hcodes, hfind, hset⟩
    exact ⟨_, g, ⟨before, c, after, hcodes, hfind, rfl⟩, hset⟩

/-! ### Widths and starts (R132, R133) -/

theorem sum_widths (glyphs : List Glyph) (spacing : Nat) :
    (glyphs.map fun g => g.width + spacing).sum = (glyphs.map Glyph.width).sum + spacing * glyphs.length := by
  induction glyphs with
  | nil => simp
  | cons g rest ih =>
    simp only [List.map_cons, List.sum_cons, ih, List.length_cons, Nat.mul_succ]
    omega

/-- A text is as wide as its glyphs and one spacing between each two (R132). -/
theorem textWidth_eq (bank : Bank) (font : Font) (codes : List Nat) :
    bank.textWidth font codes = ((codes.filterMap bank.glyphs.find).map Glyph.width).sum +
      font.spacing * ((codes.filterMap bank.glyphs.find).length - 1) := by
  unfold Bank.textWidth Bank.presentGlyphs
  dsimp only
  rw [sum_widths]
  cases codes.filterMap bank.glyphs.find with
  | nil => simp
  | cons g rest =>
    simp only [List.isEmpty_cons, Bool.false_eq_true, if_false, List.length_cons, Nat.mul_succ, Nat.add_sub_cancel]
    omega

theorem alignedStart_eq (align : Align) (boxX boxWidth width : Nat) :
    (alignedStart align boxX boxWidth width : Int) =
      max (boxX : Int)
        (match align with
        | .left => boxX
        | .right => (boxX : Int) + boxWidth - width
        | .centre => (boxX : Int) + ((boxWidth : Int) - width) / 2) := by
  unfold alignedStart
  cases align <;> dsimp only <;> split <;> omega

/-! ### Lines (R69, R75, R78, R82, R101) -/

theorem mem_syntheticTextLines {row : PanelRow} {height y : Nat} :
    y ∈ syntheticTextLines row height ↔ y < row.height ∧ fullPanelTop row.height height ≤ y ∧
      y < fullPanelTop row.height height + height := by
  unfold syntheticTextLines
  simp

/-- Settles O48, clause by clause. -/
theorem textsAreSetInTheirPlaces : Obligations.TextsAreSetInTheirPlaces := by
  refine ⟨sets_iff, textWidth_eq, alignedStart_eq, fun zone row height gap i y => ?_, fun bank secondary n => ?_,
    fun bank secondary base e => ?_⟩
  · refine ⟨?_, mem_clippedLines, mem_clippedLines, mem_clippedLines, ?_, mem_syntheticTextLines⟩
    · unfold Zone.textTop
      split <;> omega
    · unfold fullPanelTop
      split <;> omega
  · unfold Bank.stringText
    refine ⟨fun hnone => ?_, fun st hst => ?_⟩
    · rw [hnone]
    · rw [hst]
  · refine ⟨rfl, rfl, rfl, rfl, rfl, rfl, fun _ => rfl, fun _ => rfl, fun _ => rfl, rfl, rfl, rfl, rfl, fun h h' m m' z z' =>
      ⟨rfl, rfl⟩⟩

end Sys2Proof.Machine

/-! A composed line pixel by pixel: what each zone and each view puts at a pixel (R75, R76, R101, R122, R129, R130, R133,
R134). -/

namespace Sys2Proof.Machine

open Claims

/-! ### Layers (R83, R130) -/

/-- The last layer that draws at a pixel gives its colour. -/
theorem lastDrawn_cons {α : Type} (a : α) (layers : List α) (draws : α → Option Colour) :
    lastDrawn (a :: layers) draws = (lastDrawn layers draws).or (draws a) := by
  have hfold (l : List α) (acc : Option Colour) :
      l.foldl (fun acc a => (draws a).or acc) acc = (lastDrawn l draws).or acc := by
    induction l generalizing acc with
    | nil => rfl
    | cons b rest ih =>
      have hstep : lastDrawn (b :: rest) draws = rest.foldl (fun acc a => (draws a).or acc) ((draws b).or none) := rfl
      rw [List.foldl_cons, ih, hstep, ih, Option.or_none, Option.or_assoc]
  rw [lastDrawn, List.foldl_cons, hfold, Option.or_none]

theorem lastDrawn_eq_none {α : Type} {layers : List α} {draws : α → Option Colour} :
    lastDrawn layers draws = none ↔ ∀ a ∈ layers, draws a = none := by
  induction layers with
  | nil => exact ⟨fun _ => nofun, fun _ => rfl⟩
  | cons a rest ih =>
    rw [lastDrawn_cons, Option.or_eq_none_iff, ih, List.forall_mem_cons]
    exact and_comm

theorem lastDrawn_eq_some {α : Type} {layers : List α} {draws : α → Option Colour} {colour : Colour} :
    lastDrawn layers draws = some colour ↔
      ∃ before a after, layers = before ++ a :: after ∧ draws a = some colour ∧ ∀ b ∈ after, draws b = none := by
  induction layers with
  | nil => simp [lastDrawn]
  | cons x rest ih =>
    rw [lastDrawn_cons, Option.or_eq_some_iff, ih, lastDrawn_eq_none]
    constructor
    · rintro (⟨before, a, after, rfl, hdraws, hafter⟩ | ⟨hnone, hdraws⟩)
      · exact ⟨x :: before, a, after, rfl, hdraws, hafter⟩
      · exact ⟨[], x, rest, rfl, hdraws, hnone⟩
    · rintro ⟨before, a, after, hlayers, hdraws, hafter⟩
      cases before with
      | nil =>
        obtain ⟨rfl, rfl⟩ := List.cons.inj hlayers
        exact .inr ⟨hafter, hdraws⟩
      | cons b before =>
        obtain ⟨-, hrest⟩ := List.cons.inj hlayers
        exact .inl ⟨before, a, after, hrest, hdraws, hafter⟩

/-! ### Texts at a pixel -/

theorem textPixel_eq_some {bank : Bank} {t : SetText} {colour c : Colour} {x y : Nat} :
    textPixel bank t colour x y = some c ↔ c = colour ∧ t.sets bank x y = true := by
  unfold textPixel
  split
  next h => simp [h, eq_comm]
  next h => simp [h]

/-- A text of no codes sets nothing. -/
theorem not_sets_nil (bank : Bank) (font : Font) (start : Int) (top x y : Nat) :
    (SetText.mk font [] start top).sets bank x y = false := by
  simp [SetText.sets, penPositions]

theorem messageCodes_eq (bank : Bank) (secondary : Bool) (text : MessageText) :
    messageCodes bank secondary text = codesOf bank secondary text := by
  cases text <;> rfl

/-! ### Departure rows (R82 to R84, R93) -/

theorem columnPixel_eq_some {sc : Scene} {row : PanelRow} {zone : Zone} {phase : Phase} {top : Nat} {e : Entry} {x y : Nat}
    {c : Column} {colour : Colour} :
    columnPixel sc row zone phase top e x y c = some colour ↔ ColumnPuts sc row zone phase top e x y c colour := by
  unfold columnPixel ColumnPuts SetsIn Sets
  dsimp only
  by_cases hin : x < zone.x + c.xOffset ∨ zone.x + c.xOffset + c.width ≤ x
  · rw [if_pos (by simpa using hin)]
    refine iff_of_false (by simp) ?_
    rintro ⟨hleft, hright, -⟩
    omega
  · rw [if_neg (by simpa using hin)]
    have hleft : zone.x + c.xOffset ≤ x := by omega
    have hright : x < zone.x + c.xOffset + c.width := by omega
    simp only [hleft, hright, true_and]
    split
    next h => simp [h, eq_comm]
    next h => simp [h]

theorem columnPixel_eq_none {sc : Scene} {row : PanelRow} {zone : Zone} {phase : Phase} {top : Nat} {e : Entry} {x y : Nat}
    {c : Column} :
    columnPixel sc row zone phase top e x y c = none ↔ ∀ other, ¬ColumnPuts sc row zone phase top e x y c other := by
  rw [Option.eq_none_iff_forall_ne_some]
  exact forall_congr' fun other => not_congr columnPixel_eq_some

theorem rowEntry_eq_some {sc : Scene} {rt : Option ZoneRuntime} {board : Fin 8} {first pages i : Nat} {e : Entry} :
    rowEntry sc rt board first pages i = some e ↔ RowShows sc rt board first pages i e := by
  unfold rowEntry RowShows
  by_cases hpages : pages = 1
  · simp [hpages]
  · simp only [hpages, if_false, false_and, not_false_eq_true, true_and, false_or, ne_eq]
    cases rt with
    | none => simp
    | some rt =>
      cases rt with
      | page index snapshot left =>
        dsimp only
        rw [List.getD_eq_getElem?_getD]
        constructor
        · intro h
          cases hrecord : snapshot[i]? with
          | none => simp [hrecord] at h
          | some record =>
            cases record with
            | none => simp [hrecord] at h
            | some sid => exact ⟨index, snapshot, left, sid, rfl, hrecord, by simpa [hrecord] using h⟩
        · rintro ⟨index', snapshot', left', sid, heq, hrecord, hfind⟩
          obtain ⟨rfl, rfl, rfl⟩ := ZoneRuntime.page.inj (Option.some.inj heq)
          rw [hrecord]
          exact hfind
      | message m => simp
      | clock drawn => simp
      | tile current left => simp

/-- The row of a pixel in a column of equal rows. -/
theorem row_of_pixel {offset height gap i : Nat} (hlow : i * (height + gap) ≤ offset)
    (hhigh : offset < i * (height + gap) + height) : offset / (height + gap) = i :=
  (Nat.div_eq_iff (by omega)).mpr ⟨hlow, by omega⟩

theorem rowsPixel_eq_some {sc : Scene} {row : PanelRow} {zone : Zone} {phase : Phase} {rt : Option ZoneRuntime} {board : Fin 8}
    {format first rows gap pages x y : Nat} {colour : Colour} (hy : zone.y ≤ y) :
    rowsPixel sc row zone phase rt board format first rows gap pages x y = some colour ↔
      ∃ i e before c after, i < rows ∧ RowShows sc rt board first pages i e ∧
        zone.y + i * ((sc.bank.font zone.font).height + gap) ≤ y ∧
        y < zone.y + i * ((sc.bank.font zone.font).height + gap) + (sc.bank.font zone.font).height ∧
        sc.bank.formats.find format = some (before ++ c :: after) ∧
        ColumnPuts sc row zone phase (zone.y + i * ((sc.bank.font zone.font).height + gap)) e x y c colour ∧
        ∀ c' ∈ after, ∀ other,
          ¬ColumnPuts sc row zone phase (zone.y + i * ((sc.bank.font zone.font).height + gap)) e x y c' other := by
  unfold rowsPixel
  dsimp only
  generalize (sc.bank.font zone.font).height = height
  have hbelow : zone.y + (y - zone.y) / (height + gap) * (height + gap) ≤ y := by
    have := Nat.div_mul_le_self (y - zone.y) (height + gap)
    omega
  by_cases hout : rows ≤ (y - zone.y) / (height + gap) ∨ zone.y + (y - zone.y) / (height + gap) * (height + gap) + height ≤ y
  · rw [if_pos (by simpa using hout)]
    refine iff_of_false (by simp) ?_
    rintro ⟨i, e, before, c, after, hi, -, hlow, hhigh, -⟩
    have := row_of_pixel (offset := y - zone.y) (i := i) (height := height) (gap := gap) (by omega) (by omega)
    rw [this] at hout
    omega
  · rw [if_neg (by simpa using hout)]
    constructor
    · intro h
      cases hformat : sc.bank.formats.find format with
      | none => simp [hformat] at h
      | some columns =>
        cases hentry : rowEntry sc rt board first pages ((y - zone.y) / (height + gap)) with
        | none => simp [hformat, hentry] at h
        | some e =>
          rw [hformat, hentry] at h
          obtain ⟨before, c, after, rfl, hdraws, hafter⟩ := lastDrawn_eq_some.mp h
          exact ⟨_, e, before, c, after, by omega, rowEntry_eq_some.mp hentry, hbelow, by omega, rfl,
            columnPixel_eq_some.mp hdraws, fun c' hc' => columnPixel_eq_none.mp (hafter c' hc')⟩
    · rintro ⟨i, e, before, c, after, hi, hshows, hlow, hhigh, hformat, hputs, hafter⟩
      obtain rfl := row_of_pixel (offset := y - zone.y) (i := i) (height := height) (gap := gap) (by omega) (by omega)
      rw [hformat, rowEntry_eq_some.mpr hshows]
      exact lastDrawn_eq_some.mpr ⟨before, c, after, rfl, columnPixel_eq_some.mpr hputs,
        fun c' hc' => columnPixel_eq_none.mpr (hafter c' hc')⟩

/-! ### Messages, tiles and texts (R78 to R81, R95 to R97, R133, R134) -/

section
variable {sc : Scene} {pl : MessagePlace} {n : Fin 8} {r : MessageRecord}

theorem shownCodes_slot (h : (sc.slots.get n).record? = some r) :
    pl.shownCodes sc (.slot n) = codesOf sc.bank pl.secondary r.text := by
  unfold MessagePlace.shownCodes
  dsimp only
  rw [h]
  exact messageCodes_eq _ _ _

theorem shownCodes_free (h : (sc.slots.get n).record? = none) : pl.shownCodes sc (.slot n) = [] := by
  unfold MessagePlace.shownCodes
  dsimp only
  rw [h]

theorem shownCodes_idle (o : Option Nat) (h : pl.idle = o) :
    pl.shownCodes sc .idle = (o.map (sc.bank.stringText pl.secondary)).getD [] := h ▸ rfl

theorem shownFont_slot {zone : Zone} (hzone : pl.zone = some zone) (h : (sc.slots.get n).record? = some r) :
    pl.shownFont sc (.slot n) = r.font := by
  unfold MessagePlace.shownFont
  dsimp only
  rw [hzone, h]

theorem role_slot (h : (sc.slots.get n).record? = some r) :
    Showing.role sc (.slot n) = if r.priority = .emergency then ColourRole.emergency else .message := by
  unfold Showing.role
  dsimp only
  rw [h]

end

/-- What a MESSAGE zone draws at a pixel. -/
theorem messagePixel_eq_some {sc : Scene} {row : PanelRow} {zone : Zone} {pl : MessagePlace} {m : MessageRuntime}
    (hzone : pl.zone = some zone) (hwidth : pl.width = zone.w) (hfont : pl.font = zone.font) {x y : Nat} {colour : Colour} :
    textPixel sc.bank (pl.setText sc m) (sc.bank.roleColour row.palette (m.showing.role sc)) x y = some colour ↔
      ∃ own codes role,
        ((∃ n r, m.showing = .slot n ∧ (sc.slots.get n).record? = some r ∧ own = sc.bank.font r.font ∧
            codes = codesOf sc.bank pl.secondary r.text ∧
            role = if r.priority = .emergency then ColourRole.emergency else .message) ∨
          (m.showing = .idle ∧ own = sc.bank.font zone.font ∧ role = .message ∧
            ∃ n, pl.idle = some n ∧ codes = sc.bank.stringText pl.secondary n)) ∧
        colour = sc.bank.roleColour row.palette role ∧
        (if m.stepTimer = none then
          SetsIn sc.bank own codes .centre zone.x zone.w (zone.textTop own.height) x y
        else Sets sc.bank own codes ((zone.x : Int) + zone.w - m.offset) (zone.textTop own.height) x y) := by
  have hset (own : Font) (codes : List Nat) (hown : sc.bank.font (pl.shownFont sc m.showing) = own)
      (hcodes : pl.shownCodes sc m.showing = codes) :
      (pl.setText sc m).sets sc.bank x y = true ↔
        if m.stepTimer = none then SetsIn sc.bank own codes .centre zone.x zone.w (zone.textTop own.height) x y
        else Sets sc.bank own codes ((zone.x : Int) + zone.w - m.offset) (zone.textTop own.height) x y := by
    subst hown hcodes
    unfold MessagePlace.setText
    dsimp only
    cases hstep : m.stepTimer with
    | none => rw [hzone, hwidth]; exact Iff.rfl
    | some left => rw [hzone, hwidth]; exact Iff.rfl
  have hnothing (hcodes : pl.shownCodes sc m.showing = []) : (pl.setText sc m).sets sc.bank x y = false := by
    unfold MessagePlace.setText
    dsimp only
    rw [hcodes]
    cases m.stepTimer <;> exact not_sets_nil _ _ _ _ _ _
  rw [textPixel_eq_some]
  constructor
  · rintro ⟨rfl, hsets⟩
    cases hshowing : m.showing with
    | slot n =>
      cases hrecord : (sc.slots.get n).record? with
      | none =>
        rw [hnothing (hshowing ▸ shownCodes_free hrecord)] at hsets
        cases hsets
      | some r =>
        exact ⟨_, _, _, .inl ⟨n, r, rfl, hrecord, rfl, rfl, rfl⟩, by rw [role_slot hrecord],
          (hset _ _ (by rw [hshowing, shownFont_slot hzone hrecord]) (hshowing ▸ shownCodes_slot hrecord)).mp hsets⟩
    | idle =>
      cases hidle : pl.idle with
      | none =>
        rw [hnothing (hshowing ▸ shownCodes_idle none hidle)] at hsets
        cases hsets
      | some n =>
        exact ⟨_, _, _, .inr ⟨rfl, rfl, rfl, n, rfl, rfl⟩, rfl,
          (hset _ _ (by rw [hshowing, ← hfont]; rfl) (hshowing ▸ shownCodes_idle (some n) hidle)).mp hsets⟩
    | empty =>
      rw [hnothing (by rw [hshowing]; rfl)] at hsets
      cases hsets
  · rintro ⟨own, codes, role, hshown, rfl, hsets⟩
    rcases hshown with ⟨n, r, hshowing, hrecord, rfl, rfl, rfl⟩ | ⟨hshowing, rfl, rfl, n, hidle, rfl⟩
    · exact ⟨by rw [hshowing, role_slot hrecord],
        (hset _ _ (by rw [hshowing, shownFont_slot hzone hrecord]) (hshowing ▸ shownCodes_slot hrecord)).mpr hsets⟩
    · exact ⟨by rw [hshowing]; rfl,
        (hset _ _ (by rw [hshowing, ← hfont]; rfl) (hshowing ▸ shownCodes_idle (some n) hidle)).mpr hsets⟩

/-- What a TILE zone draws at a pixel. -/
theorem tilePixel_eq_some {sc : Scene} {zone : Zone} {current x y : Nat} {colour : Colour} :
    tilePixel sc zone current x y = some colour ↔
      ∃ tile, sc.bank.tiles.find current = some tile ∧ x - zone.x < 32 ∧ y - zone.y < 16 ∧ colour.val ≠ 0 ∧
        colour.val =
          (let byte := byteAt (((if y - zone.y < 8 then tile.upper else tile.lower)).getD [])
              ((y - zone.y) % 8 * 16 + (x - zone.x) / 2)
           if (x - zone.x) % 2 = 0 then byte / 16 else byte % 16) := by
  have hvalue (tile : Tile) :
      (let byte := byteAt (((if y - zone.y < 8 then tile.upper else tile.lower)).getD [])
          ((y - zone.y) % 8 * 16 + (x - zone.x) / 2)
       if (x - zone.x) % 2 = 0 then byte / 16 else byte % 16) = tile.pixel (x - zone.x) (y - zone.y) := rfl
  have hlt (tile : Tile) (j i : Nat) : tile.pixel j i < 16 := by
    have hbyte (l : List Byte) (k : Nat) : byteAt l k < 256 := (l.getD k 0).isLt
    unfold Tile.pixel
    dsimp only
    split <;> have := hbyte ((if i < 8 then tile.upper else tile.lower).getD []) (i % 8 * 16 + j / 2) <;> omega
  simp only [hvalue]
  unfold tilePixel
  cases hfind : sc.bank.tiles.find current with
  | none => simp
  | some tile =>
    dsimp only
    by_cases hout : 32 ≤ x - zone.x ∨ 16 ≤ y - zone.y
    · rw [if_pos (by simpa using hout)]
      refine iff_of_false (by simp) ?_
      rintro ⟨tile', -, hx, hy, -⟩
      omega
    · rw [if_neg (by simpa using hout)]
      have hpixel := hlt tile (x - zone.x) (y - zone.y)
      constructor
      · intro h
        cases hv : tile.pixel (x - zone.x) (y - zone.y) with
        | zero => simp [hv] at h
        | succ v =>
          rw [hv] at h hpixel
          obtain rfl := Option.some.inj h
          have hval : (Fin.ofNat 16 (v + 1)).val = v + 1 := Nat.mod_eq_of_lt hpixel
          exact ⟨tile, rfl, by omega, by omega, by rw [hval]; omega, hval.trans hv.symm⟩
      · rintro ⟨tile', heq, -, -, hne, hval⟩
        obtain rfl := Option.some.inj heq
        cases hv : tile.pixel (x - zone.x) (y - zone.y) with
        | zero => exact absurd (hval.trans hv) hne
        | succ v =>
          rw [hv] at hval hpixel
          exact congrArg some (Fin.ext ((Nat.mod_eq_of_lt hpixel).trans hval.symm))

/-! ### Zones (R75, R76, R130) -/

/-- What a zone's content draws at a pixel below the zone's top. -/
theorem zoneContent_eq_some {sc : Scene} {d : Display} {z : Nat} {p : Fin 16} {row : PanelRow} {zone : Zone} {x y : Nat}
    {colour : Colour} (hy : zone.y ≤ y) :
    zoneContent sc d z p row zone x y = some colour ↔ ContentPuts sc d z row zone x y colour := by
  unfold zoneContent ContentPuts
  dsimp only
  cases hkind : zone.kind with
  | rows board format first rows gap pages dwell => exact rowsPixel_eq_some hy
  | message floor interval dwell idle =>
    have hplace : zonePlace? d.seq.phase p row zone = some ⟨p, row, some zone, zone.w, interval, dwell, floor, idle, zone.font,
        drawsSecondary zone.language d.seq.phase⟩ := by
      unfold zonePlace?
      rw [hkind]
    cases hrt : d.seq.runtimes.find z with
    | none => simp [hplace]
    | some rt =>
      cases rt with
      | message m =>
        dsimp only
        rw [hplace]
        refine (messagePixel_eq_some rfl rfl rfl).trans ⟨?_, ?_⟩
        · rintro ⟨own, codes, role, h⟩
          exact ⟨m, own, codes, role, rfl, h⟩
        · rintro ⟨m', own, codes, role, heq, h⟩
          obtain rfl := ZoneRuntime.message.inj (Option.some.inj heq)
          exact ⟨own, codes, role, h⟩
      | page index snapshot left => simp [hplace]
      | clock drawn => simp [hplace]
      | tile current left => simp [hplace]
  | clock seconds align =>
    cases hrt : d.seq.runtimes.find z with
    | none => simp
    | some rt =>
      cases rt with
      | clock drawn =>
        refine textPixel_eq_some.trans ⟨fun h => ⟨drawn, rfl, h⟩, ?_⟩
        rintro ⟨drawn', heq, h⟩
        obtain rfl := ZoneRuntime.clock.inj (Option.some.inj heq)
        exact h
      | page index snapshot left => simp
      | message m => simp
      | tile current left => simp
  | tile first count dwell =>
    cases hrt : d.seq.runtimes.find z with
    | none => exact tilePixel_eq_some
    | some rt => cases rt <;> exact tilePixel_eq_some
  | text string align role => exact textPixel_eq_some

theorem zoneContent_eq_none {sc : Scene} {d : Display} {z : Nat} {p : Fin 16} {row : PanelRow} {zone : Zone} {x y : Nat}
    (hy : zone.y ≤ y) :
    zoneContent sc d z p row zone x y = none ↔ ∀ other, ¬ContentPuts sc d z row zone x y other := by
  rw [Option.eq_none_iff_forall_ne_some]
  exact forall_congr' fun other => not_congr (zoneContent_eq_some hy)

/-- A zone leaves its content at a pixel, or its fill (R75, R76). -/
theorem zonePixel_eq_some {sc : Scene} {d : Display} {x y : Nat} {e : Nat × Fin 16 × PanelRow × Zone} {colour : Colour} :
    zonePixel sc d x y e = some colour ↔ ZonePuts sc d x y e colour := by
  obtain ⟨z, p, row, zone⟩ := e
  unfold zonePixel ZonePuts
  dsimp only
  by_cases hout : x < zone.x ∨ zone.x + zone.w ≤ x ∨ y < zone.y ∨ zone.y + zone.h ≤ y
  · rw [if_pos (by simp only [Bool.or_eq_true, decide_eq_true_eq]; omega)]
    refine iff_of_false (by simp) ?_
    rintro ⟨h1, h2, h3, h4, -⟩
    omega
  · rw [if_neg (by simp only [Bool.or_eq_true, decide_eq_true_eq]; omega)]
    have h1 : zone.x ≤ x := by omega
    have h2 : x < zone.x + zone.w := by omega
    have h3 : zone.y ≤ y := by omega
    have h4 : y < zone.y + zone.h := by omega
    rw [Option.or_eq_some_iff, zoneContent_eq_some h3, zoneContent_eq_none h3, Option.map_eq_some_iff]
    simp only [h1, h2, h3, h4, true_and, eq_comm (b := colour)]

theorem zonePixel_eq_none {sc : Scene} {d : Display} {x y : Nat} {e : Nat × Fin 16 × PanelRow × Zone} :
    zonePixel sc d x y e = none ↔ ∀ other, ¬ZonePuts sc d x y e other := by
  rw [Option.eq_none_iff_forall_ne_some]
  exact forall_congr' fun other => not_congr zonePixel_eq_some

/-- A scene's zones stand in ascending number. -/
theorem zones_rising {sc : Scene} (h : sc.bank.zones.wf) : sc.zones.Pairwise fun e e' => e.1 < e'.1 := by
  unfold Scene.zones
  refine List.pairwise_filterMap.mpr (List.Pairwise.imp (fun {a b} hlt x hx y hy => ?_) h)
  cases ha : sc.panel (panelOfZone a.1) with
  | none => simp [ha] at hx
  | some row =>
    cases hb : sc.panel (panelOfZone b.1) with
    | none => simp [hb] at hy
    | some row' =>
      simp only [ha, hb, Option.some.injEq] at hx hy
      rw [← hx, ← hy]
      exact hlt

/-- Of layers in ascending number the last that draws is the highest that draws. -/
theorem last_is_highest {α : Type} {layers before after : List (Nat × α)} {e : Nat × α}
    (hrising : layers.Pairwise fun a b => a.1 < b.1) (hlayers : layers = before ++ e :: after) {e' : Nat × α} :
    e' ∈ after ↔ e' ∈ layers ∧ e.1 < e'.1 := by
  subst hlayers
  obtain ⟨-, hafter, hbefore⟩ := List.pairwise_append.mp hrising
  constructor
  · exact fun h => ⟨List.mem_append_right _ (List.mem_cons_of_mem _ h), (List.pairwise_cons.mp hafter).1 e' h⟩
  · rintro ⟨hmem, hlt⟩
    rcases List.mem_append.mp hmem with h | h
    · have := hbefore e' h e List.mem_cons_self
      omega
    · rcases List.mem_cons.mp h with rfl | h
      · omega
      · exact h

/-- NORMAL: the highest zone that puts a colour at a pixel, or none. -/
theorem normalPixel_cases {sc : Scene} (d : Display) (p : Fin 16) (x y : Nat) (background : Colour) (h : sc.bank.zones.wf) :
    (∃ e ∈ sc.zones, e.2.1 = p ∧
        ZonePuts sc d x y e ((lastDrawn (sc.zones.filter fun e => decide (e.2.1 = p)) (zonePixel sc d x y)).getD background) ∧
        ∀ e' ∈ sc.zones, e'.2.1 = p → e.1 < e'.1 → ∀ other, ¬ZonePuts sc d x y e' other) ∨
      (∀ e ∈ sc.zones, e.2.1 = p → ∀ other, ¬ZonePuts sc d x y e other) ∧
        (lastDrawn (sc.zones.filter fun e => decide (e.2.1 = p)) (zonePixel sc d x y)).getD background = background := by
  have hmem (e : Nat × Fin 16 × PanelRow × Zone) :
      e ∈ sc.zones.filter (fun e => decide (e.2.1 = p)) ↔ e ∈ sc.zones ∧ e.2.1 = p := by simp
  have hrising := (zones_rising h).filter fun e => decide (e.2.1 = p)
  cases hlast : lastDrawn (sc.zones.filter fun e => decide (e.2.1 = p)) (zonePixel sc d x y) with
  | none =>
    exact .inr ⟨fun e he hp => zonePixel_eq_none.mp (lastDrawn_eq_none.mp hlast e ((hmem e).mpr ⟨he, hp⟩)), rfl⟩
  | some colour =>
    obtain ⟨before, e, after, hlayers, hdraws, hafter⟩ := lastDrawn_eq_some.mp hlast
    obtain ⟨he, hp⟩ := (hmem e).mp (hlayers ▸ List.mem_append_right _ List.mem_cons_self)
    exact .inl ⟨e, he, hp, zonePixel_eq_some.mp hdraws, fun e' he' hp' hlt =>
      zonePixel_eq_none.mp (hafter e' ((last_is_highest hrising hlayers).mpr ⟨(hmem e').mpr ⟨he', hp'⟩, hlt⟩))⟩

/-! ### Full-panel texts (R101, R122) -/

/-- A text over the background. -/
theorem textPixel_over (bank : Bank) (t : SetText) (colour background : Colour) (x y : Nat) :
    (t.sets bank x y = true → (textPixel bank t colour x y).getD background = colour) ∧
      (¬t.sets bank x y = true → (textPixel bank t colour x y).getD background = background) := by
  unfold textPixel
  exact ⟨fun h => by rw [if_pos h]; rfl, fun h => by rw [if_neg h]; rfl⟩

/-- The text of a panel in EMERGENCY (R101, R122). -/
theorem syntheticText_sets (sc : Scene) (phase : Phase) (p : Fin 16) (row : PanelRow) (rt : MessageRuntime) (x y : Nat) :
    ((syntheticPlace phase p row).setText sc rt).sets sc.bank x y = true ↔
      (let font := sc.bank.font row.emergencyFont
       let text := match rt.showing with
        | .slot n => ((sc.slots.get n).record?.map fun r => codesOf sc.bank (decide (phase = .secondary)) r.text).getD []
        | .idle | .empty => []
       if rt.stepTimer = none then SetsIn sc.bank font text .centre 0 row.width (fullPanelTop row.height font.height) x y
       else Sets sc.bank font text ((row.width : Int) - rt.offset) (fullPanelTop row.height font.height) x y) := by
  have hfont : (syntheticPlace phase p row).shownFont sc rt.showing = row.emergencyFont := by
    cases rt.showing <;> rfl
  have hcodes : (syntheticPlace phase p row).shownCodes sc rt.showing =
      match rt.showing with
      | .slot n => ((sc.slots.get n).record?.map fun r => codesOf sc.bank (decide (phase = .secondary)) r.text).getD []
      | .idle | .empty => [] := by
    cases rt.showing with
    | slot n =>
      unfold MessagePlace.shownCodes
      dsimp only
      cases (sc.slots.get n).record? with
      | none => rfl
      | some r => exact messageCodes_eq _ _ _
    | idle => rfl
    | empty => rfl
  dsimp only
  rw [← hcodes, ← hfont]
  unfold MessagePlace.setText
  dsimp only
  cases hstep : rt.stepTimer with
  | none => exact Iff.rfl
  | some left =>
    unfold Sets
    rw [if_neg (by simp)]
    simp [syntheticPlace]

/-- Settles O49: a composed line is `viewPixel` at each pixel; a case for each view. -/
theorem composedLineFollowsItsViewAndZones : Obligations.ComposedLineFollowsItsViewAndZones := by
  intro sc d p row y hwf hrow
  refine ⟨by simp [composeLine], fun x hx => ⟨(viewPixel sc d p row x y).getD row.background, ?_, ?_⟩⟩
  · unfold composeLine
    rw [List.getElem?_map, List.getElem?_range hx]
    rfl
  · dsimp only
    unfold viewPixel
    cases d.seq.views.get p with
    | none => rfl
    | some view =>
      cases view with
      | normal => exact normalPixel_cases d p x y row.background hwf
      | emergency =>
        dsimp only
        unfold emergencyPixel
        refine ⟨fun rt hrt => ?_, fun hnone => ?_⟩
        · rw [hrt]
          obtain ⟨hset, hunset⟩ := textPixel_over sc.bank ((syntheticPlace d.seq.phase p row).setText sc rt)
            (sc.bank.roleColour row.palette .emergency) row.background x y
          have hsets := syntheticText_sets sc d.seq.phase p row rt x y
          exact ⟨fun h => hset (hsets.mpr h), fun h => hunset fun h' => h (hsets.mp h')⟩
        · rw [hnone]
          rfl
      | blank => rfl
      | test => rfl
      | fallback => exact textPixel_over sc.bank (fallbackText sc d.seq.phase row) _ _ x y

end Sys2Proof.Machine

/-! Line coding and the characters of frames (R135 to R137, R144, R162, R189). -/

namespace Sys2Proof.Machine

open Claims

/-! ### Spans and runs (R135) -/

theorem spans_cons_nil {c : Colour} {rest : List Colour} (h : spans rest = []) : spans (c :: rest) = [(c, 1)] := by
  rw [spans, h]

theorem spans_cons_same {c : Colour} {n : Nat} {rest : List Colour} {more : List (Colour × Nat)}
    (h : spans rest = (c, n) :: more) : spans (c :: rest) = (c, n + 1) :: more := by
  rw [spans, h]
  exact if_pos rfl

theorem spans_cons_other {c d : Colour} {n : Nat} {rest : List Colour} {more : List (Colour × Nat)}
    (h : spans rest = (d, n) :: more) (hne : c ≠ d) : spans (c :: rest) = (c, 1) :: (d, n) :: more := by
  rw [spans, h]
  exact if_neg hne

/-- Spans spell the line, each is of at least one pixel, and neighbours differ. -/
theorem spans_spell (px : List Colour) :
    ((spans px).flatMap fun span => List.replicate span.2 span.1) = px ∧ (∀ span ∈ spans px, 1 ≤ span.2) ∧
      (spans px).IsChain fun a b => a.1 ≠ b.1 := by
  induction px with
  | nil => exact ⟨rfl, nofun, List.isChain_nil⟩
  | cons c rest ih =>
    obtain ⟨hspell, hlong, hchain⟩ := ih
    cases hspans : spans rest with
    | nil =>
      rw [spans_cons_nil hspans]
      rw [hspans] at hspell
      exact ⟨by simp [← hspell], by simp, List.isChain_singleton _⟩
    | cons span more =>
      obtain ⟨d, n⟩ := span
      rw [hspans] at hspell hlong hchain
      have hmore : ∀ span ∈ more, 1 ≤ span.2 := fun span hspan => hlong span (List.mem_cons_of_mem _ hspan)
      by_cases hsame : c = d
      · subst hsame
        rw [spans_cons_same hspans]
        refine ⟨?_, ?_, ?_⟩
        · rw [← hspell]
          simp [List.replicate_succ]
        · exact List.forall_mem_cons.mpr ⟨by simp, hmore⟩
        · cases more with
          | nil => exact List.isChain_singleton _
          | cons next more => exact List.isChain_cons_cons.mpr (List.isChain_cons_cons.mp hchain)
      · rw [spans_cons_other hspans hsame]
        refine ⟨?_, ?_, List.isChain_cons_cons.mpr ⟨hsame, hchain⟩⟩
        · rw [List.flatMap_cons, hspell]
          rfl
        · exact List.forall_mem_cons.mpr ⟨Nat.le_refl 1, hlong⟩

/-- The runs of a span: they spell it, each of 1 to 16, as few as there can be. -/
theorem spanRuns_spell (span : Colour × Nat) :
    ((spanRuns span).flatMap fun r => List.replicate r.2 r.1) = List.replicate span.2 span.1 ∧
      (∀ r ∈ spanRuns span, 1 ≤ r.2 ∧ r.2 ≤ 16) ∧ (spanRuns span).length = (span.2 + 15) / 16 := by
  obtain ⟨c, n⟩ := span
  have hfull (k : Nat) : ((List.replicate k (c, 16)).flatMap fun r => List.replicate r.2 r.1) = List.replicate (k * 16) c := by
    rw [List.flatMap_replicate, List.flatten_replicate_replicate]
  unfold spanRuns
  dsimp only
  by_cases hrest : n % 16 = 0
  · rw [if_pos hrest, List.append_nil]
    refine ⟨?_, ?_, ?_⟩
    · rw [hfull]
      congr 1
      omega
    · intro r hr
      rw [List.eq_of_mem_replicate hr]
      exact ⟨(by decide : 1 ≤ 16), Nat.le_refl 16⟩
    · rw [List.length_replicate]
      omega
  · rw [if_neg hrest]
    refine ⟨?_, ?_, ?_⟩
    · rw [List.flatMap_append, hfull, List.flatMap_singleton, ← List.replicate_add]
      congr 1
      omega
    · intro r hr
      rcases List.mem_append.mp hr with hr | hr
      · rw [List.eq_of_mem_replicate hr]
        exact ⟨(by decide : 1 ≤ 16), Nat.le_refl 16⟩
      · rw [List.mem_singleton.mp hr]
        dsimp only
        omega
    · rw [List.length_append, List.length_replicate, List.length_singleton]
      omega

theorem lineRuns_spell (px : List Colour) : ((lineRuns px).flatMap fun r => List.replicate r.2 r.1) = px := by
  unfold lineRuns
  rw [List.flatMap_assoc]
  simp only [(spanRuns_spell _).1]
  exact (spans_spell px).1

/-! ### Packed bytes and the form sent (R136) -/

theorem length_packedBytes (px : List Colour) : (packedBytes px).length = (px.length + 1) / 2 := by
  induction px using packedBytes.induct with
  | case1 l r rest ih =>
    simp only [packedBytes, List.length_cons, ih]
    omega
  | case2 l => simp [packedBytes]
  | case3 => simp [packedBytes]

/-- Two pixels to the byte, the left one first. -/
theorem packedBytes_pixel (px : List Colour) {i : Nat} {c : Colour} (h : px[i]? = some c) :
    c.val = if i % 2 = 0 then byteAt (packedBytes px) (i / 2) / 16 else byteAt (packedBytes px) (i / 2) % 16 := by
  induction px using packedBytes.induct generalizing i with
  | case1 l r rest ih =>
    have hbyte : byteAt (packedBytes (l :: r :: rest)) 0 = l.val * 16 + r.val := by
      show (l.val * 16 + r.val) % 256 = _
      omega
    match i with
    | 0 =>
      obtain rfl : l = c := by simpa using h
      rw [if_pos rfl, Nat.zero_div, hbyte]
      omega
    | 1 =>
      obtain rfl : r = c := by simpa using h
      rw [if_neg (by decide), show 1 / 2 = 0 from rfl, hbyte]
      omega
    | i + 2 =>
      have hnext : byteAt (packedBytes (l :: r :: rest)) ((i + 2) / 2) = byteAt (packedBytes rest) (i / 2) := by
        rw [Nat.add_div_right _ (by decide)]
        rfl
      rw [hnext, Nat.add_mod_right]
      exact ih (by simpa using h)
  | case2 l =>
    match i with
    | 0 =>
      obtain rfl : l = c := by simpa using h
      show l.val = (l.val * 16) % 256 / 16
      omega
    | i + 1 => simp at h
  | case3 => simp at h

theorem codeLine_eq (px : List Colour) :
    codeLine px =
      (if (lineRuns px).length ≤ (px.length + 1) / 2 then
        (0, (lineRuns px).map fun r => BitVec.ofNat 8 (r.1.val * 16 + (r.2 - 1)))
      else (1, packedBytes px)) := by
  unfold codeLine
  rw [length_packedBytes]
  rfl

/-- Either form takes at most a byte for two pixels. -/
theorem length_codeLine (px : List Colour) : (codeLine px).2.length ≤ (px.length + 1) / 2 := by
  rw [codeLine_eq]
  split
  next h => simpa using h
  next => exact (length_packedBytes px).le

/-! ### The characters of a frame (R144, R189) -/

/-- The data bits of a frame: address, command, payload length, payload and check, the marker on the first alone. -/
theorem frameChars_spelled (address command : Nat) (payload : List Byte) :
    (frameChars address command payload).map BusChar.data =
        [BitVec.ofNat 8 address, BitVec.ofNat 8 command, BitVec.ofNat 8 payload.length] ++ payload ++
          [checkOf (bytes1 address ++ bytes1 command ++ bytes1 payload.length ++ payload)] ∧
      (frameChars address command payload).map BusChar.marker = true :: List.replicate (payload.length + 3) false ∧
      sumBytes ((frameChars address command payload).map BusChar.data) = 0 := by
  refine ⟨?_, ?_, ?_⟩
  · unfold frameChars
    rw [map_data_markedChars]
    rfl
  · unfold frameChars
    rw [map_marker_markedChars (by simp [withCheck])]
    simp
    omega
  · unfold frameChars
    rw [map_data_markedChars, sumBytes_withCheck]

section
variable {address command : Nat} {payload : List Byte}

theorem length_frameData :
    ((frameChars address command payload).map BusChar.data).length = payload.length + 4 := by
  rw [(frameChars_spelled address command payload).1]
  simp

/-- The first three characters of a frame. -/
theorem frameData_header :
    byteAt ((frameChars address command payload).map BusChar.data) 0 = address % 256 ∧
      byteAt ((frameChars address command payload).map BusChar.data) 1 = command % 256 ∧
      byteAt ((frameChars address command payload).map BusChar.data) 2 = payload.length % 256 := by
  rw [(frameChars_spelled address command payload).1]
  exact ⟨rfl, rfl, rfl⟩

/-- A frame's payload stands behind three characters. -/
theorem frameData_payload {i : Nat} {b : Byte} (h : payload[i]? = some b) :
    ((frameChars address command payload).map BusChar.data)[3 + i]? = some b := by
  obtain ⟨hi, -⟩ := List.getElem?_eq_some_iff.mp h
  rw [(frameChars_spelled address command payload).1, List.getElem?_append_left (by simp; omega),
    List.getElem?_append_right (by simp)]
  simpa using h

end

/-- A frame marks its address alone and sums to 0. -/
theorem frameChars_good (address command : Nat) (payload : List Byte) :
    sumBytes ((frameChars address command payload).map BusChar.data) = 0 ∧
      (frameChars address command payload).map BusChar.marker =
        true :: List.replicate (((frameChars address command payload).map BusChar.data).length - 1) false ∧
      byteAt ((frameChars address command payload).map BusChar.data) 0 = address % 256 := by
  obtain ⟨-, hmarker, hsum⟩ := frameChars_spelled address command payload
  refine ⟨hsum, ?_, frameData_header.1⟩
  rw [length_frameData]
  exact hmarker

/-- A LINE frame: its line, its form and its data behind the header (R137, R189). -/
theorem lineFrame_spelled (address y form : Nat) (coded : List Byte) :
    let data := (frameChars address 1 (bytes1 y ++ bytes1 form ++ coded)).map BusChar.data
    byteAt data 1 = 1 ∧ byteAt data 2 = (coded.length + 2) % 256 ∧ byteAt data 3 = y % 256 ∧ byteAt data 4 = form % 256 ∧
      (data.drop 5).dropLast = coded ∧ data.length = coded.length + 6 := by
  have hlength : (bytes1 y ++ bytes1 form ++ coded).length = coded.length + 2 := by
    simp
    omega
  intro data
  refine ⟨frameData_header.2.1, frameData_header.2.2.trans (by rw [hlength]), ?_, ?_, ?_, length_frameData.trans (by rw [hlength])⟩
  · show byteAt ((frameChars address 1 _).map BusChar.data) 3 = _
    rw [(frameChars_spelled address 1 _).1]
    rfl
  · show byteAt ((frameChars address 1 _).map BusChar.data) 4 = _
    rw [(frameChars_spelled address 1 _).1]
    rfl
  · show (((frameChars address 1 _).map BusChar.data).drop 5).dropLast = _
    rw [(frameChars_spelled address 1 _).1]
    exact List.dropLast_concat

theorem codeLine_form (px : List Colour) : (codeLine px).1 < 256 := by
  rw [codeLine_eq]
  split
  · exact (by decide : 0 < 256)
  · exact (by decide : 1 < 256)

theorem paletteBytes_of {bank : Bank} {k : Nat} {pal : Palette} (h : bank.palettes.find k = some pal) :
    bank.paletteBytes k = pal.colours := by
  unfold Bank.paletteBytes
  rw [h]

theorem paletteBytes_unloaded {bank : Bank} {k : Nat} (h : bank.palettes.find k = none) :
    bank.paletteBytes k = List.replicate 48 0 := by
  unfold Bank.paletteBytes
  rw [h]

/-- A black component stays black at every level. -/
theorem scaleComponent_zero (level : Nat) : scaleComponent level 0 = 0 := by
  unfold scaleComponent
  omega

/-- Settles O50: the runs and the packed bytes of a line, then a frame by the work it carries. -/
theorem framesSpellTheirLinesAndSumToZero : Obligations.FramesSpellTheirLinesAndSumToZero := by
  refine ⟨fun px => ⟨lineRuns_spell px, fun r hr => ?_, ?_, (spans_spell px).2.2, length_packedBytes px,
    fun i c hc => packedBytes_pixel px hc, codeLine_eq px, fun hpx => (length_codeLine px).trans (by omega)⟩,
    fun s p row work => ?_⟩
  · obtain ⟨span, -, hrun⟩ := List.mem_flatMap.mp hr
    exact (spanRuns_spell span).2.1 r hrun
  · unfold lineRuns
    rw [List.length_flatMap]
    simp only [(spanRuns_spell _).2.2]
  · dsimp only
    have hcomposed (y : Nat) : (composeLine s.scene s.disp p row y).length = row.width := by simp [composeLine]
    cases work with
    | line y =>
      obtain ⟨hsum, hmarker, haddress⟩ := frameChars_good row.address 1
        (bytes1 y ++ bytes1 (codeLine (composeLine s.scene s.disp p row y)).1 ++ (codeLine (composeLine s.scene s.disp p row y)).2)
      refine ⟨hsum, hmarker, haddress, fun y' hy => ?_, nofun, nofun⟩
      obtain rfl := FrameWork.line.inj hy
      have hshort := length_codeLine (composeLine s.scene s.disp p row y)
      rw [hcomposed] at hshort
      obtain ⟨hcommand, hlength, hy, hform, hcoded, hsize⟩ := lineFrame_spelled row.address y
        (codeLine (composeLine s.scene s.disp p row y)).1 (codeLine (composeLine s.scene s.disp p row y)).2
      exact ⟨hcommand, fun hwidth => hlength.trans (Nat.mod_eq_of_lt (by omega)), hy,
        hform.trans (Nat.mod_eq_of_lt (codeLine_form _)), hcoded, hsize, hcomposed y⟩
    | palette =>
      obtain ⟨hsum, hmarker, haddress⟩ := frameChars_good row.address 2
        ((s.tables.activeBank.paletteBytes row.palette).map fun c =>
          BitVec.ofNat 8 (scaleComponent (s.light.levelOf row) c.toNat))
      refine ⟨hsum, hmarker, haddress, nofun, fun _ => ⟨frameData_header.2.1, fun pal hpal hok => ?_, fun hnone => ?_⟩, nofun⟩
      · have hlength : ((s.tables.activeBank.paletteBytes row.palette).map fun c =>
            BitVec.ofNat 8 (scaleComponent (s.light.levelOf row) c.toNat)).length = 48 := by
          rw [List.length_map, paletteBytes_of hpal]
          exact hok.1
        refine ⟨length_frameData.trans (by rw [hlength]), frameData_header.2.2.trans (by rw [hlength]),
          fun level hlevel i c hc => frameData_payload ?_⟩
        have hof : s.light.levelOf row = level := by
          rcases hlevel with ⟨n, hn, rfl⟩ | hfixed
          · exact levelOf_sensor hn
          · exact levelOf_fixed hfixed
        rw [paletteBytes_of hpal, List.getElem?_map, hc, hof]
        rfl
      · have hbytes : ((s.tables.activeBank.paletteBytes row.palette).map fun c =>
            BitVec.ofNat 8 (scaleComponent (s.light.levelOf row) c.toNat)) = List.replicate 48 0 := by
          rw [paletteBytes_unloaded hnone, List.map_replicate]
          exact congrArg (fun n => List.replicate 48 (BitVec.ofNat 8 n)) (scaleComponent_zero _)
        refine ⟨length_frameData.trans (by rw [hbytes]; rfl), frameData_header.2.2.trans (by rw [hbytes]; rfl),
          fun i hi => frameData_payload ?_⟩
        rw [hbytes, List.getElem?_replicate, if_pos hi]
    | view c =>
      obtain ⟨hsum, hmarker, haddress⟩ := frameChars_good row.address c.command []
      refine ⟨hsum, hmarker, haddress, nofun, nofun, fun c' hc => ?_⟩
      obtain rfl := FrameWork.view.inj hc
      exact ⟨length_frameData, frameData_header.2.2, frameData_header.2.1.trans (by cases c <;> rfl)⟩

end Sys2Proof.Machine

/-! Cells on the trunk lines: a good cell is relayed, forwarded or judged, and each queue sends in its turn (R165,
R168 to R173). -/

namespace Sys2Proof.Machine

open Claims

/-! ### The arbiter (R172) -/

/-- What the arbiter starts on an idle RETURN_OUT. -/
theorem arbitrate_idle {t : TrunkPort} (h : t.sending = none) :
    (t.relay = [] → t.own = [] → t.arbitrate.sending = none ∧ t.arbitrate.lastServed = t.lastServed) ∧
      (t.relay ≠ [] → t.own = [] → t.arbitrate.sending = some .relay ∧ t.arbitrate.lastServed = .relay) ∧
      (t.relay = [] → t.own ≠ [] → t.arbitrate.sending = some .own ∧ t.arbitrate.lastServed = .own) ∧
      (t.relay ≠ [] → t.own ≠ [] →
        t.arbitrate.sending = some (if t.lastServed = .relay then .own else .relay) ∧
          t.arbitrate.sending = some t.arbitrate.lastServed) := by
  have hserved (q : ReturnQueue) (hq : t.nextServed = some q) :
      t.arbitrate.sending = some q ∧ t.arbitrate.lastServed = q := by
    show t.serve.sending = some q ∧ t.serve.lastServed = q
    obtain ⟨r, -, hr, heq⟩ | ⟨hnone, -⟩ := t.serve_cases
    · rw [heq]
      obtain rfl := Option.some.inj (hr.symm.trans hq)
      exact ⟨rfl, rfl⟩
    · rw [hnone h] at hq
      cases hq
  refine ⟨fun hrelay hown => ?_, fun hrelay hown => hserved _ ?_, fun hrelay hown => hserved _ ?_, fun hrelay hown => ?_⟩
  · show t.serve.sending = none ∧ t.serve.lastServed = t.lastServed
    obtain ⟨r, -, hr, -⟩ | ⟨-, heq⟩ := t.serve_cases
    · rw [nextServed_eq_none.mpr ⟨hrelay, hown⟩] at hr
      cases hr
    · rw [heq]
      exact ⟨h, rfl⟩
  · unfold TrunkPort.nextServed
    rw [hown, List.isEmpty_eq_false_iff.mpr hrelay]
    rfl
  · unfold TrunkPort.nextServed
    rw [hrelay, List.isEmpty_eq_false_iff.mpr hown]
    rfl
  · have hnext : t.nextServed = some (if t.lastServed = .relay then .own else .relay) := by
      unfold TrunkPort.nextServed
      rw [List.isEmpty_eq_false_iff.mpr hrelay, List.isEmpty_eq_false_iff.mpr hown]
    obtain ⟨hsending, hlast⟩ := hserved _ hnext
    exact ⟨hsending, hsending.trans (congrArg some hlast.symm)⟩

/-- The arbiter leaves a busy RETURN_OUT its queue. -/
theorem arbitrate_busy {t : TrunkPort} (h : t.sending ≠ none) :
    t.arbitrate.sending = t.sending ∧ t.arbitrate.lastServed = t.lastServed := by
  show t.serve.sending = _ ∧ t.serve.lastServed = _
  obtain ⟨r, hnone, -⟩ | ⟨-, heq⟩ := t.serve_cases
  · exact absurd hnone h
  · rw [heq]
    exact ⟨rfl, rfl⟩

/-- The arbiter's act on a lane is a change of the return lane alone. -/
theorem arbitrate_changes (s : State) (f : TrunkPort → TrunkPort)
    (h : ∀ t, f t = { t with relay := (f t).relay, own := (f t).own, sending := (f t).sending }) :
    OnlyChanges [.returnLane] s (s.onTrunk fun t => (f t).arbitrate) := fun part hp => by
  have hf := h s.trunk
  obtain ⟨hrx, hrxr, hforward, hout, -, -, hsilence, hsilent, ha, hc, hnode, hrate⟩ := arbitrate_fields (f s.trunk)
  cases part with
  | returnLane => simp at hp
  | receiver lane =>
    refine (arbitrate_receiver (f s.trunk) lane).trans ?_
    rw [hf]
    cases lane <;> rfl
  | forward => exact ⟨hforward.trans (by rw [hf]), hout.trans (by rw [hf])⟩
  | silence => exact ⟨hsilence.trans (by rw [hf]), hsilent.trans (by rw [hf])⟩
  | trunkCounts => exact ⟨ha.trans (by rw [hf]), hc.trans (by rw [hf])⟩
  | straps => exact ⟨hnode.trans (by rw [hf]), hrate.trans (by rw [hf])⟩
  | phase => exact ⟨rfl, rfl⟩
  | refusal => exact ⟨rfl, rfl⟩
  | _ => exact rfl

/-! ### A cell that completes (R166, R167) -/

theorem setReceiver_self {t : TrunkPort} {lane : Lane} {rx : Receiver} (h : t.receiver lane = rx) :
    t.setReceiver lane rx = t := by
  cases lane <;> cases h <;> rfl

/-- A whole cell on a lane whose receiver hunts is judged as it stands. -/
theorem arriveCell_hunting {lane : Lane} {cell : List Byte} {s : State} (hshape : cellShape cell = true)
    (hrx : s.trunk.receiver lane = .hunt) :
    arriveCell lane cell s = completeCell lane cell s := by
  unfold arriveCell
  rw [if_pos hshape, hrx]
  exact congrArg _ (if_pos rfl)

theorem completeCell_hunting {lane : Lane} {cell : List Byte} {s : State} (hrx : s.trunk.receiver lane = .hunt) :
    completeCell lane cell s = match lane with
      | .trunkIn => judgeTrunk cell s
      | .returnIn => judgeReturn cell s := by
  have hself : (s.onTrunk fun t => t.setReceiver lane .hunt) = s :=
    congrArg (fun t => { s with trunk := t }) (setReceiver_self hrx)
  unfold completeCell
  dsimp only
  rw [hself]
  cases lane <;> rfl

theorem exec_trunkCell {cell : List Byte} {s : State} (hshape : cellShape cell = true) (hrx : s.trunk.rxTrunk = .hunt) :
    exec (.trunkCell cell) s = .next (judgeTrunk cell s) :=
  congrArg Host.Outcome.next ((arriveCell_hunting (lane := .trunkIn) hshape hrx).trans (completeCell_hunting (lane := .trunkIn) hrx))

theorem exec_returnCell {cell : List Byte} {s : State} (hshape : cellShape cell = true) (hrx : s.trunk.rxReturn = .hunt) :
    exec (.returnCell cell) s = .next (judgeReturn cell s) :=
  congrArg Host.Outcome.next
    ((arriveCell_hunting (lane := .returnIn) hshape hrx).trans (completeCell_hunting (lane := .returnIn) hrx))

/-! ### The queues (R170 to R172) -/

/-- A good return cell joins the relay queue (R171, R172). -/
theorem judgeReturn_room {cell : List Byte} {s : State} (hgood : sumBytes cell = 0) (h : s.trunk.relay.length < 4) :
    judgeReturn cell s = s.onTrunk fun t => { t with relay := t.relay ++ [cell] }.arbitrate := by
  unfold judgeReturn
  rw [if_neg (by simpa using hgood), if_pos (show s.trunk.relay.length < queueSize from h)]

theorem judgeReturn_full {cell : List Byte} {s : State} (hgood : sumBytes cell = 0) (h : ¬s.trunk.relay.length < 4) :
    judgeReturn cell s = s.onFlags Flags.raiseRelayDrop := by
  unfold judgeReturn
  rw [if_neg (by simpa using hgood), if_neg (show ¬s.trunk.relay.length < queueSize from h)]

/-- The return lane after the cell of a queue is sent. -/
def TrunkPort.afterSent (t : TrunkPort) : ReturnQueue → TrunkPort
  | .relay => { t with relay := t.relay.tail, sending := none }
  | .own => { t with own := t.own.tail, sending := none }

theorem execReturnOutCellSent_of {q : ReturnQueue} {s : State} (h : s.trunk.sending = some q) :
    execReturnOutCellSent s = .next (s.onTrunk fun t => (t.afterSent q).arbitrate) := by
  unfold execReturnOutCellSent State.onTrunk
  dsimp only
  rw [h]
  cases q <;> rfl

/-- Settles O60 by the arbiter's cases. -/
theorem queuesSendInTurn : Obligations.QueuesSendInTurn := by
  refine ⟨fun cell s ⟨hshape, hgood⟩ hrx => ?_, fun s => ?_, fun q s hsending => ?_⟩
  · refine ⟨_, exec_returnCell hshape hrx, ?_⟩
    by_cases hroom : s.trunk.relay.length < 4
    · rw [judgeReturn_room hgood hroom]
      obtain ⟨-, -, -, -, hrelay, hown, -⟩ := arbitrate_fields { s.trunk with relay := s.trunk.relay ++ [cell] }
      refine ⟨hown, fun _ => ⟨hrelay, rfl, returnOutSends_of (TrunkPort.arbitrate_returnOut _), fun hbusy =>
        arbitrate_busy (t := { s.trunk with relay := s.trunk.relay ++ [cell] }) hbusy⟩, fun _ hidle hnone => ?_,
        fun hfull => absurd hroom (by omega), (arbitrate_changes s _ fun t => rfl).mono (by decide)⟩
      exact (arbitrate_idle (t := { s.trunk with relay := s.trunk.relay ++ [cell] }) hidle).2.1 (by simp) hnone
    · rw [judgeReturn_full hgood hroom]
      exact ⟨rfl, fun h => absurd h hroom, fun h => absurd h hroom, fun _ => ⟨rfl, rfl, rfl⟩,
        (onFlags_changes s _).mono (by decide)⟩
  · refine ⟨_, rfl, rfl, trunkOutSends_of rfl, fun part hp => ?_⟩
    cases part with
    | forward => simp at hp
    | receiver lane => cases lane <;> rfl
    | returnLane => exact ⟨rfl, rfl, rfl, rfl, rfl⟩
    | phase | refusal | silence | trunkCounts | straps => exact ⟨rfl, rfl⟩
    | _ => exact rfl
  · refine ⟨_, execReturnOutCellSent_of hsending, ?_⟩
    have hidle : (s.trunk.afterSent q).sending = none := by cases q <;> rfl
    have hlast : (s.trunk.afterSent q).lastServed = s.trunk.lastServed := by cases q <;> rfl
    obtain ⟨-, -, -, -, hrelay, hown, -⟩ := arbitrate_fields (s.trunk.afterSent q)
    obtain ⟨hnone, hr, ho, hboth⟩ := arbitrate_idle hidle
    rw [← hrelay, ← hown] at hnone hr ho hboth
    rw [hlast] at hnone hboth
    exact ⟨hrelay.trans (by cases q <;> rfl), hown.trans (by cases q <;> rfl), hnone, hr, ho, hboth,
      returnOutSends_of (TrunkPort.arbitrate_returnOut _),
      arbitrate_changes s (fun t => t.afterSent q) fun t => by cases q <;> rfl⟩

/-! ### Good cells on TRUNK_IN (R168 to R170, R173) -/

/-- A good cell heard: the silence timer starts again, and the views are chosen again where SILENT stood. -/
theorem hearGood_heard (s : State) :
    (hearGood s).trunk.silence = 0 ∧ (hearGood s).trunk.silent = false ∧
      (s.trunk.silent = false → (hearGood s).disp = s.disp) ∧
      (s.trunk.silent = true → (hearGood s).disp = rechooseViews (hearGood s).scene s.disp) := by
  rw [hearGood_trunk]
  refine ⟨rfl, rfl, fun hclear => ?_, fun hsilent => ?_⟩
  · unfold hearGood
    dsimp only
    rw [if_neg (by simp [hclear])]
    rfl
  · unfold hearGood
    dsimp only
    rw [if_pos hsilent]
    rfl

theorem hearGood_mgmt (s : State) : (hearGood s).mgmt = s.mgmt := by
  unfold hearGood
  dsimp only
  split <;> rfl

theorem hearGood_bank (s : State) : (hearGood s).tables = s.tables := by
  unfold hearGood
  dsimp only
  split <;> rfl

/-- What forwarding a cell leaves as it is. -/
theorem forwardCell_keeps (cell : List Byte) (s : State) :
    (forwardCell cell s).disp = s.disp ∧ (forwardCell cell s).scene = s.scene ∧ (forwardCell cell s).tables = s.tables ∧
      (forwardCell cell s).trunk.silence = s.trunk.silence ∧ (forwardCell cell s).trunk.silent = s.trunk.silent ∧
      (forwardCell cell s).mgmt.refusals = s.mgmt.refusals := by
  unfold forwardCell
  split <;> exact ⟨rfl, rfl, rfl, rfl, rfl, rfl⟩

theorem forwardCell_forwarded (cell : List Byte) (s : State) : Forwarded cell s (forwardCell cell s) := by
  unfold Forwarded forwardCell
  by_cases hroom : s.trunk.forward.length < 4
  · rw [if_pos hroom, if_pos (show s.trunk.forward.length < queueSize from hroom)]
    exact ⟨rfl, trunkOutSends_of rfl, rfl⟩
  · rw [if_neg hroom, if_neg (show ¬s.trunk.forward.length < queueSize from hroom)]
    exact ⟨rfl, rfl, rfl⟩

/-- A forwarded cell is forwarded in a state that differs from the one before only where forwarding does not look. -/
theorem Forwarded.congr {cell : List Byte} {s s' t t' : State} (h : Forwarded cell s t) (hs : s'.trunk.forward = s.trunk.forward)
    (hsout : s'.trunk.trunkOut = s.trunk.trunkOut) (hsflags : s'.mgmt.flags = s.mgmt.flags) (ht : t'.trunk = t.trunk)
    (htflags : t'.mgmt.flags = t.mgmt.flags) : Forwarded cell s' t' := by
  unfold Forwarded TrunkOutSends at h ⊢
  rw [hs, hsout, hsflags, ht, htflags]
  exact h

/-- A good cell heard and then forwarded. -/
theorem forward_heard (cell : List Byte) (s : State) : Forwarded cell s (forwardCell cell (hearGood s)) :=
  Forwarded.congr (forwardCell_forwarded cell (hearGood s)) (by rw [hearGood_trunk]; rfl) (by rw [hearGood_trunk]; rfl)
    (by rw [hearGood_mgmt]) rfl rfl

theorem judgeTrunk_good {cell : List Byte} {s : State} (hgood : sumBytes cell = 0) :
    judgeTrunk cell s =
      (let passed := if forwardsDestination s.trunk.node (byteAt cell 1) then forwardCell cell (hearGood s) else hearGood s
       if takesDestination s.trunk.node (byteAt cell 1) then takeCell cell passed else passed) := by
  unfold judgeTrunk
  rw [if_neg (by simpa using hgood)]

/-- A good cell for another coder is forwarded, and nothing more. -/
theorem judgeTrunk_other {cell : List Byte} {s : State} (hgood : sumBytes cell = 0) (hzero : byteAt cell 1 ≠ 0)
    (hother : byteAt cell 1 ≠ s.trunk.node.val) : judgeTrunk cell s = forwardCell cell (hearGood s) := by
  have htakes : takesDestination s.trunk.node (byteAt cell 1) = false := by
    rw [Bool.eq_false_iff, ne_eq, takesDestination_iff]
    rintro (h | ⟨h, -⟩)
    · exact hzero h
    · exact hother h
  rw [judgeTrunk_good hgood]
  simp [forwardsDestination, htakes]

/-- A good cell for every coder is forwarded and taken. -/
theorem judgeTrunk_broadcast {cell : List Byte} {s : State} (hgood : sumBytes cell = 0) (hzero : byteAt cell 1 = 0) :
    judgeTrunk cell s = takeCell cell (forwardCell cell (hearGood s)) := by
  have htakes : takesDestination s.trunk.node 0 = true := takesDestination_iff.mpr (.inl rfl)
  rw [judgeTrunk_good hgood]
  simp [forwardsDestination, htakes, hzero]

/-- A good cell for this coder alone is taken. -/
theorem judgeTrunk_own {cell : List Byte} {s : State} (hgood : sumBytes cell = 0) (hzero : byteAt cell 1 ≠ 0)
    (hown : byteAt cell 1 = s.trunk.node.val) : judgeTrunk cell s = takeCell cell (hearGood s) := by
  have htakes : takesDestination s.trunk.node (byteAt cell 1) = true :=
    takesDestination_iff.mpr (.inr ⟨hown, fun h => hzero (hown.trans h)⟩)
  rw [judgeTrunk_good hgood]
  simp [forwardsDestination, htakes, hzero]

/-! ### Cells of unknown kind or wrong length (R169) -/

theorem lengthPermitted_unknown {kind : Nat}
    (h : kind ∉ [0x10, 0x11, 0x12, 0x18, 0x20, 0x21, 0x40, 0x41, 0x42, 0x43, 0x48, 0x49, 0x4A, 0x50, 0x5F]) (n : Nat) :
    lengthPermitted? kind n = none := by
  unfold lengthPermitted?
  split <;> simp_all

theorem lengthPermitted_fixed {kind size n : Nat}
    (h : (kind, size) ∈ [(0x10, 17), (0x11, 3), (0x12, 1), (0x18, 3), (0x21, 1), (0x41, 0), (0x42, 0), (0x43, 0), (0x48, 5),
      (0x49, 1), (0x4A, 1), (0x50, 2), (0x5F, 0)]) : lengthPermitted? kind n = some (decide (n = size)) := by
  simp only [List.mem_cons, Prod.mk.injEq, List.not_mem_nil, or_false] at h
  rcases h with ⟨rfl, rfl⟩ | ⟨rfl, rfl⟩ | ⟨rfl, rfl⟩ | ⟨rfl, rfl⟩ | ⟨rfl, rfl⟩ | ⟨rfl, rfl⟩ | ⟨rfl, rfl⟩ | ⟨rfl, rfl⟩ |
    ⟨rfl, rfl⟩ | ⟨rfl, rfl⟩ | ⟨rfl, rfl⟩ | ⟨rfl, rfl⟩ | ⟨rfl, rfl⟩ <;> rfl

theorem lengthPermitted_least {kind size n : Nat} (h : (kind, size) ∈ [(0x20, 8), (0x40, 3)]) :
    lengthPermitted? kind n = some (decide (size ≤ n)) := by
  simp only [List.mem_cons, Prod.mk.injEq, List.not_mem_nil, or_false] at h
  rcases h with ⟨rfl, rfl⟩ | ⟨rfl, rfl⟩ <;> rfl

/-- The two ways a taken cell is refused by its kind and length. -/
def RefusedKind (cell : List Byte) (reason : Reason) : Prop :=
  (reason = .badKind ∧
      byteAt cell 0 ∉ [0x10, 0x11, 0x12, 0x18, 0x20, 0x21, 0x40, 0x41, 0x42, 0x43, 0x48, 0x49, 0x4A, 0x50, 0x5F]) ∨
    (reason = .badLength ∧
      ((∃ size, (byteAt cell 0, size) ∈ [(0x10, 17), (0x11, 3), (0x12, 1), (0x18, 3), (0x21, 1), (0x41, 0), (0x42, 0),
          (0x43, 0), (0x48, 5), (0x49, 1), (0x4A, 1), (0x50, 2), (0x5F, 0)] ∧ byteAt cell 2 ≠ size) ∨
        ∃ size, (byteAt cell 0, size) ∈ [(0x20, 8), (0x40, 3)] ∧ byteAt cell 2 < size))

theorem takeCell_refused {cell : List Byte} {reason : Reason} (hwhole : isWhole cell = true) (h : RefusedKind cell reason)
    (s : State) : takeCell cell s = s.refuse (byteAt cell 0) reason := by
  unfold takeCell
  dsimp only
  rw [length_body hwhole]
  rcases h with ⟨rfl, hkind⟩ | ⟨rfl, ⟨size, hsize, hne⟩ | ⟨size, hsize, hlt⟩⟩
  · rw [lengthPermitted_unknown hkind]
  · rw [lengthPermitted_fixed hsize, decide_eq_false hne]
  · rw [lengthPermitted_least hsize, decide_eq_false (by omega)]

/-- Settles O58: hearing and forwarding, then a good cell by its destination. -/
theorem goodCellsAreForwardedOrJudged : Obligations.GoodCellsAreForwardedOrJudged := by
  refine ⟨fun s => ?_, fun cell s => ⟨forwardCell_forwarded cell s, forwardCell_changes cell s⟩,
    fun cell s ⟨hshape, hgood⟩ hrx hzero hother => ?_, fun cell reason s ⟨hshape, hgood⟩ hrx hdest hrefused => ?_⟩
  · obtain ⟨hsilence, hsilent, hclear, hrechosen⟩ := hearGood_heard s
    exact ⟨hsilence, hsilent, hclear,
      fun h => viewsRechosen_of_rechosen (hrechosen h) (congrArg TableStore.activeBank (hearGood_bank s)),
      (hearGood_changes s).mono (by decide)⟩
  · obtain ⟨hsilence, hsilent, hclear, hrechosen⟩ := hearGood_heard s
    obtain ⟨hdisp, hscene, htables, hsilence', hsilent', -⟩ := forwardCell_keeps cell (hearGood s)
    refine ⟨_, (exec_trunkCell hshape hrx).trans (congrArg Host.Outcome.next (judgeTrunk_other hgood hzero hother)),
      hsilence'.trans hsilence, hsilent'.trans hsilent, forward_heard cell s, fun h => hdisp.trans (hclear h), fun h => ?_,
      ((hearGood_changes s).mono (by decide)).trans ((forwardCell_changes cell _).mono (by decide))⟩
    exact viewsRechosen_of_rechosen (hdisp.trans (hscene ▸ hrechosen h))
      (congrArg TableStore.activeBank (htables.trans (hearGood_bank s)))
  · obtain ⟨hsilence, hsilent, hclear, hrechosen⟩ := hearGood_heard s
    by_cases hzero : byteAt cell 1 = 0
    · obtain ⟨hdisp, hscene, htables, hsilence', hsilent', hcount⟩ := forwardCell_keeps cell (hearGood s)
      have hjudged := (judgeTrunk_broadcast hgood hzero).trans
        (takeCell_refused (isWhole_of_cellShape hshape) hrefused (forwardCell cell (hearGood s)))
      refine ⟨_, (exec_trunkCell hshape hrx).trans (congrArg Host.Outcome.next hjudged), hsilence'.trans hsilence,
        hsilent'.trans hsilent, rfl, ?_, fun _ => Forwarded.congr (forward_heard cell s) rfl rfl rfl rfl rfl,
        fun h => absurd hzero h, fun h => hdisp.trans (hclear h), fun h => ?_,
        (((hearGood_changes s).mono (by decide)).trans ((forwardCell_changes cell _).mono (by decide))).trans
          ((refuse_changes _ _ _).mono (by decide))⟩
      · refine (saturate_eq_min 255 _).trans ?_
        rw [hcount, hearGood_mgmt]
      · exact viewsRechosen_of_rechosen (hdisp.trans (hscene ▸ hrechosen h))
          (congrArg TableStore.activeBank (htables.trans (hearGood_bank s)))
    · have hown := hdest.resolve_left hzero
      have hjudged := (judgeTrunk_own hgood hzero hown).trans
        (takeCell_refused (isWhole_of_cellShape hshape) hrefused (hearGood s))
      refine ⟨_, (exec_trunkCell hshape hrx).trans (congrArg Host.Outcome.next hjudged), hsilence, hsilent, rfl, ?_,
        fun h => absurd h hzero, fun _ => ⟨?_, ?_⟩, hclear, fun h => ?_,
        ((hearGood_changes s).mono (by decide)).trans ((refuse_changes _ _ _).mono (by decide))⟩
      · refine (saturate_eq_min 255 _).trans ?_
        rw [hearGood_mgmt]
      · show (hearGood s).trunk.forward = _
        rw [hearGood_trunk]
        rfl
      · show (hearGood s).mgmt.flags = _
        rw [hearGood_mgmt]
      · exact viewsRechosen_of_rechosen (hrechosen h) (congrArg TableStore.activeBank (hearGood_bank s))

end Sys2Proof.Machine

/-! Characters on the trunk lines: those of a cell do what the cell does, and a receiver abandons a broken one (R166,
R167). -/

namespace Sys2Proof.Machine

open Claims

/-! ### A receiver written (R166) -/

theorem setReceiver_receiver (t : TrunkPort) (lane : Lane) (rx : Receiver) : (t.setReceiver lane rx).receiver lane = rx := by
  cases lane <;> rfl

theorem setReceiver_twice (t : TrunkPort) (lane : Lane) (rx rx' : Receiver) :
    (t.setReceiver lane rx).setReceiver lane rx' = t.setReceiver lane rx' := by
  cases lane <;> rfl

/-- A state whose receiver of a lane is part-way through a cell. -/
def State.receiving (s : State) (lane : Lane) (rx : Receiver) : State := s.onTrunk fun t => t.setReceiver lane rx

/-! ### What a receiver does with a character (R166) -/

theorem charAction_begins {ch : LineChar} (hmarker : ch.marker = true) (hstop : ch.goodStop = true) :
    charAction .hunt ch = .keep (.collect [ch.data]) := if_pos ⟨hmarker, hstop⟩

theorem charAction_ignores {ch : LineChar} (h : ch.marker = false ∨ ch.goodStop = false) : charAction .hunt ch = .ignore := by
  refine if_neg ?_
  rintro ⟨hmarker, hstop⟩
  rcases h with h | h
  · exact Bool.false_ne_true (h.symm.trans hmarker)
  · exact Bool.false_ne_true (h.symm.trans hstop)

section
variable {chars : List Byte} {ch : LineChar}

/-- A good character without a marker is kept or completes the cell. -/
theorem charAction_good (hmarker : ch.marker = false) (hstop : ch.goodStop = true)
    (hlength : chars.length = 2 → ch.data.toNat ≤ 250) :
    charAction (.collect chars) ch =
      if isWhole (chars ++ [ch.data]) then .complete (chars ++ [ch.data]) else .keep (.collect (chars ++ [ch.data])) := by
  have hfits : ¬(chars.length = 2 ∧ maxLength < ch.data.toNat) := fun ⟨htwo, hlong⟩ =>
    absurd hlong (Nat.not_lt_of_le (hlength htwo))
  unfold charAction
  dsimp only
  rw [if_neg (by simp [hstop]), if_neg (by simp [hmarker]), if_neg hfits]

/-- A character that breaks the cell makes the receiver abandon it. -/
theorem charAction_abandons (h : ch.goodStop = false ∨ ch.marker = true ∨ (chars.length = 2 ∧ 250 < ch.data.toNat)) :
    charAction (.collect chars) ch =
      .abandon (if ch.goodStop = true ∧ ch.marker = true then .collect [ch.data] else .hunt) := by
  unfold charAction
  dsimp only
  by_cases hstop : ch.goodStop = false
  · rw [if_pos hstop, if_neg fun h => by simp [hstop] at h]
  · have hgood : ch.goodStop = true := by simpa using hstop
    rw [if_neg hstop]
    by_cases hmarker : ch.marker = true
    · rw [if_pos hmarker, if_pos ⟨hgood, hmarker⟩]
    · have hlong : chars.length = 2 ∧ maxLength < ch.data.toNat := (h.resolve_left hstop).resolve_left hmarker
      rw [if_neg hmarker, if_pos hlong, if_neg fun h => hmarker h.2]

end

theorem byteAt_two_append {chars : List Byte} (h : 3 ≤ chars.length) (more : List Byte) :
    byteAt (chars ++ more) 2 = byteAt chars 2 := byteAt_append_left (by omega)

theorem isWhole_iff {chars : List Byte} : isWhole chars = true ↔ 3 < chars.length ∧ chars.length = byteAt chars 2 + 4 :=
  decide_eq_true_iff

theorem arriveChar_keeps_of {lane : Lane} {ch : LineChar} {rx : Receiver} {s : State}
    (h : charAction (s.trunk.receiver lane) ch = .keep rx) : arriveChar lane ch s = s.receiving lane rx := by
  unfold arriveChar
  rw [h]
  rfl

theorem arriveChar_completes {lane : Lane} {ch : LineChar} {cell : List Byte} {s : State}
    (h : charAction (s.trunk.receiver lane) ch = .complete cell) : arriveChar lane ch s = completeCell lane cell s := by
  unfold arriveChar
  rw [h]

theorem arriveChar_abandons {lane : Lane} {ch : LineChar} {rx : Receiver} {s : State}
    (h : charAction (s.trunk.receiver lane) ch = .abandon rx) : arriveChar lane ch s = abandonCell lane rx s := by
  unfold arriveChar
  rw [h]

/-! ### The characters of a cell (R165, R166) -/

theorem runAll_char {lane : Lane} {ch : LineChar} {s t : State} (h : arriveChar lane ch s = t) (rest : List Instr) :
    runAll (.characterArrival lane ch :: rest) s = runAll rest t := by
  have hexec : exec (.characterArrival lane ch) s = .next t := congrArg Host.Outcome.next h
  rw [runAll, hexec]

theorem completeCell_receiving (lane : Lane) (cell : List Byte) (rx : Receiver) (s : State) :
    completeCell lane cell (s.receiving lane rx) = completeCell lane cell s := by
  have hhunt : ((s.receiving lane rx).onTrunk fun t => t.setReceiver lane .hunt) = s.onTrunk fun t => t.setReceiver lane .hunt :=
    congrArg (fun t => { s with trunk := t }) (setReceiver_twice s.trunk lane rx .hunt)
  unfold completeCell
  rw [hhunt]

/-- A receiver that holds the first characters of a cell completes it with the rest of them. -/
theorem runAll_rest {lane : Lane} {cell : List Byte} (hshape : cellShape cell = true) (rest before : List Byte)
    (hcell : before ++ rest = cell) (hbefore : before ≠ []) (hrest : rest ≠ []) (s : State) :
    runAll ((rest.map fun b => (⟨b, false, true⟩ : LineChar)).map (.characterArrival lane)) (s.receiving lane (.collect before)) =
      .next (completeCell lane cell s) := by
  obtain ⟨hlong, hlength⟩ := isWhole_iff.mp (isWhole_of_cellShape hshape)
  have hmax : byteAt cell 2 ≤ 250 := by
    match cell, hshape with
    | _ :: _ :: len :: _, h =>
      simp only [cellShape, Bool.and_eq_true, decide_eq_true_eq] at h
      exact h.1
  induction rest generalizing before with
  | nil => exact absurd rfl hrest
  | cons b more ih =>
    have hnext : before ++ [b] ++ more = cell := by rw [List.append_assoc]; exact hcell
    have hcount : before.length + 1 + more.length = cell.length := by
      rw [← hcell, List.length_append, List.length_cons]
      omega
    have hfits : before.length = 2 → b.toNat ≤ 250 := fun htwo => by
      have hb : byteAt cell 2 = b.toNat := by
        rw [← hcell, ← htwo]
        exact byteAt_append_right before (b :: more) 0
      exact hb ▸ hmax
    have hrx : (s.receiving lane (.collect before)).trunk.receiver lane = .collect before := setReceiver_receiver _ _ _
    have haction := charAction_good (chars := before) (ch := ⟨b, false, true⟩) rfl rfl hfits
    rw [← hrx] at haction
    by_cases hlast : more = []
    · have hwhole : before ++ [b] = cell := by
        rw [hlast] at hnext
        simpa using hnext
      rw [if_pos (hwhole ▸ isWhole_iff.mpr ⟨hlong, hlength⟩), hwhole] at haction
      refine (runAll_char ((arriveChar_completes haction).trans (completeCell_receiving lane cell _ s)) _).trans ?_
      rw [hlast]
      rfl
    · have hpart : ¬isWhole (before ++ [b]) = true := fun h => by
        obtain ⟨hthree, heq⟩ := isWhole_iff.mp h
        have hmore : 0 < more.length := List.length_pos_of_ne_nil hlast
        rw [← byteAt_two_append (by omega) more, hnext] at heq
        rw [List.length_append, List.length_singleton] at heq
        omega
      rw [if_neg hpart] at haction
      have hkept : (s.receiving lane (.collect before)).receiving lane (.collect (before ++ [b])) =
          s.receiving lane (.collect (before ++ [b])) :=
        congrArg (fun t => { s with trunk := t }) (setReceiver_twice s.trunk lane _ _)
      exact (runAll_char ((arriveChar_keeps_of haction).trans hkept) _).trans
        (ih (before ++ [b]) hnext (by simp) hlast)

/-- The characters of a cell on a lane that hunts complete it. -/
theorem runAll_onLine {lane : Lane} {cell : List Byte} (hshape : cellShape cell = true) {s : State}
    (hrx : s.trunk.receiver lane = .hunt) :
    runAll ((onLine cell).map (.characterArrival lane)) s = .next (arriveCell lane cell s) := by
  rw [arriveCell_hunting hshape hrx]
  obtain ⟨hlong, -⟩ := isWhole_iff.mp (isWhole_of_cellShape hshape)
  match cell, hlong with
  | kind :: next :: rest, _ =>
    have haction : charAction (s.trunk.receiver lane) ⟨kind, true, true⟩ = .keep (.collect [kind]) := by
      rw [hrx]
      exact charAction_begins rfl rfl
    exact (runAll_char (arriveChar_keeps_of haction) _).trans
      (runAll_rest hshape (next :: rest) [kind] rfl (by simp) (by simp) s)

/-! ### Cells that go no further (R166, R167) -/

theorem abandonCell_of (lane : Lane) (rx : Receiver) (s : State) :
    (abandonCell lane rx s).trunk.receiver lane = rx ∧
      (abandonCell lane rx s).trunk.abandoned = min 255 (s.trunk.abandoned + 1) ∧
      (abandonCell lane rx s).trunk.checkFailures = s.trunk.checkFailures := by
  have hcount : (abandonCell lane rx s).trunk.abandoned = saturate 255 s.trunk.abandoned := rfl
  rw [hcount]
  exact ⟨by cases lane <;> rfl, saturate_eq_min _ _, by cases lane <;> rfl⟩

theorem judgeTrunk_bad {cell : List Byte} (h : sumBytes cell ≠ 0) (s : State) : judgeTrunk cell s = countCheckFailure s := by
  unfold judgeTrunk
  exact if_pos h

theorem judgeReturn_bad {cell : List Byte} (h : sumBytes cell ≠ 0) (s : State) : judgeReturn cell s = countCheckFailure s := by
  unfold judgeReturn
  exact if_pos h

/-- Settles O59: a cell's characters by `runAll_rest`, and a character by its action. -/
theorem charactersMakeTheCellOrAbandonIt : Obligations.CharactersMakeTheCellOrAbandonIt := by
  refine ⟨fun cell s hshape => ⟨fun hrx => runAll_onLine (lane := .trunkIn) hshape hrx,
    fun hrx => runAll_onLine (lane := .returnIn) hshape hrx⟩, fun lane ch s => ⟨fun hrx => ⟨fun hmarker hstop => ?_, fun h => ?_⟩,
    fun chars hrx hmarker hstop hfits hpart => ?_⟩, fun cell s hshape hbad => ⟨fun hrx => ?_, fun hrx => ?_⟩,
    fun lane chars ch s hrx hbroken => ?_⟩
  · exact ⟨_, congrArg Host.Outcome.next (arriveChar_keeps_of (hrx ▸ charAction_begins hmarker hstop)),
      setReceiver_receiver _ _ _, setReceiver_changes s lane _⟩
  · have hignored : arriveChar lane ch s = s := by
      unfold arriveChar
      rw [hrx, charAction_ignores h]
    exact congrArg Host.Outcome.next hignored
  · have hnot : ¬isWhole (chars ++ [ch.data]) = true := fun h => by
      obtain ⟨hthree, heq⟩ := isWhole_iff.mp h
      rw [List.length_append, List.length_singleton] at hthree heq
      rw [byteAt_two_append (by omega)] at heq
      exact hpart (by omega) (by omega)
    have haction := (charAction_good (chars := chars) hmarker hstop hfits).trans (if_neg hnot)
    exact ⟨_, congrArg Host.Outcome.next (arriveChar_keeps_of (hrx ▸ haction)), setReceiver_receiver _ _ _,
      setReceiver_changes s lane _⟩
  · exact ⟨_, (exec_trunkCell hshape hrx).trans (congrArg Host.Outcome.next (judgeTrunk_bad hbad s)), saturate_eq_min _ _, rfl,
      countCheckFailure_changes s⟩
  · exact ⟨_, (exec_returnCell hshape hrx).trans (congrArg Host.Outcome.next (judgeReturn_bad hbad s)), saturate_eq_min _ _, rfl,
      countCheckFailure_changes s⟩
  · have haction := charAction_abandons hbroken
    rw [← hrx] at haction
    have hexec : execCellAbandoned lane ch s = .next (abandonCell lane
        (if ch.goodStop = true ∧ ch.marker = true then .collect [ch.data] else .hunt) s) := by
      unfold execCellAbandoned
      rw [haction]
    obtain ⟨hreceiver, habandoned, hfailures⟩ := abandonCell_of lane
      (if ch.goodStop = true ∧ ch.marker = true then .collect [ch.data] else .hunt) s
    exact ⟨_, hexec, hreceiver, habandoned, hfailures, abandonCell_changes lane _ s,
      congrArg Host.Outcome.next (arriveChar_abandons haction)⟩

end Sys2Proof.Machine

/-! A command in its cell: every kind, field, byte order and length is read back as it was written (R168, R169, R185 to
R187). -/

namespace Sys2Proof.Machine

open Claims

/-! ### Bodies read back (R185) -/

theorem lt_of_fitsBytes {n v : Nat} (h : fitsBytes n v = true) : v < 256 ^ n := of_decide_eq_true h

theorem byteAt_head {n : Nat} (h : n < 256) (rest : List Byte) : byteAt (bytes1 n ++ rest) 0 = n :=
  (byteAt_append_left (by simp)).trans (byteAt_bytes1 h)

/-- An ENTRY body of the cell's widths is read back whole. -/
theorem entryOfBody_bytes {b : EntryBody} (h : b.wf = true) : entryOfBody b.bytes = b := by
  obtain ⟨board, sid, presence, dest, via, platform, sched, expected, status, cars⟩ := b
  simp only [EntryBody.wf, Bool.and_eq_true, fitsBytes, decide_eq_true_eq] at h
  have hlist : EntryBody.bytes ⟨board, sid, presence, dest, via, platform, sched, expected, status, cars⟩ =
      [BitVec.ofNat 8 board, BitVec.ofNat 8 (sid / 256), BitVec.ofNat 8 sid, presence, BitVec.ofNat 8 (dest / 256),
        BitVec.ofNat 8 dest, BitVec.ofNat 8 (via / 256), BitVec.ofNat 8 via, BitVec.ofNat 8 platform,
        BitVec.ofNat 8 (sched / 65536), BitVec.ofNat 8 (sched / 256), BitVec.ofNat 8 sched, BitVec.ofNat 8 (expected / 65536),
        BitVec.ofNat 8 (expected / 256), BitVec.ofNat 8 expected, BitVec.ofNat 8 status, BitVec.ofNat 8 cars] := by
    simp only [EntryBody.bytes, bytes1, bytes2, bytes3, List.cons_append, List.nil_append]
  have hbyte (n : Nat) (hn : n < 256) : (BitVec.ofNat 8 n).toNat = n := byteAt_bytes1 hn
  have hword (n : Nat) (hn : n < 65536) : (BitVec.ofNat 8 (n / 256)).toNat * 256 + (BitVec.ofNat 8 n).toNat = n := wordAt_bytes2 hn
  have htriple (n : Nat) (hn : n < 16777216) :
      ((BitVec.ofNat 8 (n / 65536)).toNat * 256 + (BitVec.ofNat 8 (n / 256)).toNat) * 256 + (BitVec.ofNat 8 n).toNat = n :=
    tripleAt_bytes3 hn
  rw [hlist]
  unfold entryOfBody
  simp only [byteAt, wordAt, tripleAt, List.getD_cons_zero, List.getD_cons_succ, EntryBody.mk.injEq]
  refine ⟨hbyte _ ?_, hword _ ?_, trivial, hword _ ?_, hword _ ?_, hbyte _ ?_, htriple _ ?_, htriple _ ?_, hbyte _ ?_, hbyte _ ?_⟩ <;>
    omega

/-- A MESSAGE body of the cell's widths is read back whole. -/
theorem messageOfBody_bytes {b : MessageBody} (h : b.wf = true) : messageOfBody b.bytes = b := by
  obtain ⟨slot, priority, mask, duration, font, count, tail⟩ := b
  simp only [MessageBody.wf, Bool.and_eq_true, fitsBytes, decide_eq_true_eq] at h
  have hlist : MessageBody.bytes ⟨slot, priority, mask, duration, font, count, tail⟩ =
      [BitVec.ofNat 8 slot, BitVec.ofNat 8 priority, BitVec.ofNat 8 (mask.toNat / 256), BitVec.ofNat 8 mask.toNat,
        BitVec.ofNat 8 (duration / 256), BitVec.ofNat 8 duration, BitVec.ofNat 8 font, BitVec.ofNat 8 count] ++ tail := by
    simp only [MessageBody.bytes, bytes1, bytes2, List.cons_append, List.nil_append]
  have hbyte (n : Nat) (hn : n < 256) : (BitVec.ofNat 8 n).toNat = n := byteAt_bytes1 hn
  have hword (n : Nat) (hn : n < 65536) : (BitVec.ofNat 8 (n / 256)).toNat * 256 + (BitVec.ofNat 8 n).toNat = n := wordAt_bytes2 hn
  have hmask : BitVec.ofNat 16 mask.toNat = mask := by simp
  rw [hlist]
  unfold messageOfBody
  simp only [byteAt, wordAt, List.cons_append, List.nil_append, List.getD_cons_zero, List.getD_cons_succ,
    List.drop_succ_cons, List.drop_zero, MessageBody.mk.injEq]
  rw [hword mask.toNat mask.isLt]
  refine ⟨hbyte _ ?_, hbyte _ ?_, hmask, hword _ ?_, hbyte _ ?_, hbyte _ ?_, trivial⟩ <;> omega

/-- A SET body of the cell's widths is read back whole. -/
theorem setBody_read {number v : Nat} (hnumber : number < 256) (hv : v < 4294967296) :
    byteAt (setBody number v) 0 = number ∧ quadAt (setBody number v) 1 = v :=
  ⟨byteAt_head hnumber _, quadAt_bytes4 hv⟩

/-! ### A command and the cell that carries it (R169) -/

/-- A body of a kind carries a command: the kind and length are permitted, and their owner does what the command does. -/
def Carries (c : Instr) (kind : Nat) (body : List Byte) (broadcast : Bool) : Prop :=
  kind < 256 ∧ body.length ≤ 250 ∧ lengthPermitted? kind body.length = some true ∧
    ∀ s, exec c s = .next (handToOwner kind broadcast body s)

/-- A SET is carried by its number and value. -/
theorem carries_set {c : Instr} {number v : Nat} (hnumber : number < 256) (hv : fitsBytes 4 v = true)
    (h : ∀ s, exec c s = .next (takeSet number v s)) (broadcast : Bool) : Carries c 0x48 (setBody number v) broadcast := by
  obtain ⟨hread, hvalue⟩ := setBody_read hnumber (lt_of_fitsBytes hv)
  refine ⟨by decide, by simp [setBody], by simp [setBody, lengthPermitted?], fun s => (h s).trans (congrArg Host.Outcome.next ?_)⟩
  show _ = takeSet (byteAt (setBody number v) 0) (quadAt (setBody number v) 1) s
  rw [hread, hvalue]

/-- A QUERY is carried by its report kind and item. -/
theorem carries_query {c : Instr} {kind item : Nat} (hkind : kind < 256) (hitem : fitsBytes 1 item = true)
    (h : ∀ s, exec c s = .next (takeQuery kind item s)) (broadcast : Bool) :
    Carries c 0x50 (bytes1 kind ++ bytes1 item) broadcast := by
  have hread : byteAt (bytes1 kind ++ bytes1 item) 1 = item := byteAt_bytes1 (lt_of_fitsBytes hitem)
  refine ⟨by decide, by simp, by simp [lengthPermitted?], fun s => (h s).trans (congrArg Host.Outcome.next ?_)⟩
  show _ = takeQuery (byteAt (bytes1 kind ++ bytes1 item) 0) (byteAt (bytes1 kind ++ bytes1 item) 1) s
  rw [byteAt_head hkind, hread]

/-- A command of one byte is carried by it. -/
theorem carries_byte {c : Instr} {kind v : Nat} (hkind : kind < 256) (hlength : lengthPermitted? kind 1 = some true)
    (hv : fitsBytes 1 v = true) {broadcast : Bool}
    (h : ∀ s body, byteAt body 0 = v → exec c s = .next (handToOwner kind broadcast body s)) :
    Carries c kind (bytes1 v) broadcast :=
  ⟨hkind, (by decide : 1 ≤ 250), hlength, fun s => h s _ (byteAt_bytes1 (lt_of_fitsBytes hv))⟩

/-- The number of a contact's setting names that setting (R186). -/
theorem takeSet_contact (n : Fin 4) (k : Nat) (hk : k < 6) (v : Nat) (s : State) :
    takeSet (contactSettingNumber n k) v s = setContactSetting n k v s := by
  interval_cases k <;> fin_cases n <;> rfl

/-- A SET of a contact's setting is carried by its number and value. -/
theorem carries_contact {c : Instr} {n : Fin 4} {k v : Nat} (hk : k < 6) (hv : fitsBytes 4 v = true)
    (h : ∀ s, exec c s = .next (setContactSetting n k v s)) (broadcast : Bool) :
    Carries c 0x48 (setBody (contactSettingNumber n k) v) broadcast :=
  carries_set (by unfold contactSettingNumber; omega) hv (fun s => takeSet_contact n k hk v s ▸ h s) broadcast

/-- Every command that travels in a cell is carried by its body. -/
theorem carries_of_wf {c : Instr} (hwf : c.wf = true) {kind : Nat} {body : List Byte} (hbody : cellBody? c = some (kind, body))
    {broadcast : Bool} (hrestart : ∀ b, c = .restart b → b = broadcast) : Carries c kind body broadcast := by
  cases c with
  | entry b =>
    obtain ⟨rfl, rfl⟩ := Prod.mk.inj (Option.some.inj hbody)
    refine ⟨by decide, by simp [EntryBody.bytes], by simp [EntryBody.bytes, lengthPermitted?], fun s => congrArg Host.Outcome.next ?_⟩
    show takeEntry b s = takeEntry (entryOfBody b.bytes) s
    rw [entryOfBody_bytes hwf]
  | withdraw board sid =>
    obtain ⟨rfl, rfl⟩ := Prod.mk.inj (Option.some.inj hbody)
    obtain ⟨hboard, hsid⟩ := Bool.and_eq_true_iff.mp hwf
    have hread : wordAt (bytes1 board ++ bytes2 sid) 1 = sid := wordAt_bytes2 (lt_of_fitsBytes hsid)
    refine ⟨by decide, by simp, by simp [lengthPermitted?], fun s => congrArg Host.Outcome.next ?_⟩
    show takeWithdraw board sid s = takeWithdraw (byteAt (bytes1 board ++ bytes2 sid) 0) (wordAt (bytes1 board ++ bytes2 sid) 1) s
    rw [byteAt_head (lt_of_fitsBytes hboard), hread]
  | clearBoard board =>
    obtain ⟨rfl, rfl⟩ := Prod.mk.inj (Option.some.inj hbody)
    exact carries_byte (by decide) rfl hwf fun s body h => h ▸ rfl
  | time second =>
    obtain ⟨rfl, rfl⟩ := Prod.mk.inj (Option.some.inj hbody)
    refine ⟨by decide, by simp, by simp [lengthPermitted?], fun s => congrArg Host.Outcome.next ?_⟩
    show takeTime second s = takeTime (tripleAt (bytes3 second) 0) s
    rw [tripleAt_bytes3 (lt_of_fitsBytes hwf)]
  | message b =>
    obtain ⟨rfl, rfl⟩ := Prod.mk.inj (Option.some.inj hbody)
    have hlength : b.bytes.length = b.tail.length + 8 := by
      simp [MessageBody.bytes]
      omega
    have htail : b.tail.length ≤ 242 := by
      simp only [Instr.wf, MessageBody.wf, Bool.and_eq_true, decide_eq_true_eq] at hwf
      omega
    refine ⟨by decide, by omega, ?_, fun s => congrArg Host.Outcome.next ?_⟩
    · show some (decide (8 ≤ b.bytes.length)) = some true
      rw [hlength, decide_eq_true (by omega)]
    · show takeMessage b s = takeMessage (messageOfBody b.bytes) s
      rw [messageOfBody_bytes hwf]
  | messageEnd slot =>
    obtain ⟨rfl, rfl⟩ := Prod.mk.inj (Option.some.inj hbody)
    exact carries_byte (by decide) rfl hwf fun s body h => h ▸ rfl
  | tableLoad table index record =>
    obtain ⟨rfl, rfl⟩ := Prod.mk.inj (Option.some.inj hbody)
    simp only [Instr.wf, Bool.and_eq_true, decide_eq_true_eq] at hwf
    obtain ⟨⟨htable, hindex⟩, hrecord⟩ := hwf
    have hlength : (bytes1 table ++ bytes2 index ++ record).length = record.length + 3 := by
      simp
      omega
    have hread : wordAt (bytes1 table ++ bytes2 index ++ record) 1 = index := wordAt_bytes2 (lt_of_fitsBytes hindex)
    refine ⟨by decide, by omega, ?_, fun s => congrArg Host.Outcome.next ?_⟩
    · show some (decide (3 ≤ (bytes1 table ++ bytes2 index ++ record).length)) = some true
      rw [hlength, decide_eq_true (by omega)]
    · show takeTableLoad table index record s = takeTableLoad (byteAt (bytes1 table ++ bytes2 index ++ record) 0)
        (wordAt (bytes1 table ++ bytes2 index ++ record) 1) record s
      rw [List.append_assoc, byteAt_head (lt_of_fitsBytes htable), ← List.append_assoc, hread]
  | bankCopy | bankClear | bankSwap =>
    obtain ⟨rfl, rfl⟩ := Prod.mk.inj (Option.some.inj hbody)
    exact ⟨by decide, by decide, rfl, fun s => rfl⟩
  | setDepartureHold v | setCancelHold v | setStalePeriod v | setCountdownLimit v | setDelayThreshold v | setLanguageDwell v
  | setSilenceLimit v | setRefreshCycle v | setHoldLimit v | setSensorFallbackLevel v =>
    obtain ⟨rfl, rfl⟩ := Prod.mk.inj (Option.some.inj hbody)
    exact carries_set (by decide) hwf (fun s => rfl) broadcast
  | setBusRate b v | setBusEnable b v =>
    obtain ⟨rfl, rfl⟩ := Prod.mk.inj (Option.some.inj hbody)
    exact carries_set (by cases b <;> decide) hwf (fun s => by cases b <;> rfl) broadcast
  | setContactEnable n v | setContactMode n v | setContactPolarity n v | setContactFilter n v | setContactPanelMask n v
  | setContactAlertString n v =>
    obtain ⟨rfl, rfl⟩ := Prod.mk.inj (Option.some.inj hbody)
    exact carries_contact (by decide) hwf (fun s => rfl) broadcast
  | setUnknownSetting number v =>
    obtain ⟨rfl, rfl⟩ := Prod.mk.inj (Option.some.inj hbody)
    simp only [Instr.wf, Bool.and_eq_true] at hwf
    obtain ⟨⟨hnumber, hv⟩, -⟩ := hwf
    exact carries_set (lt_of_fitsBytes hnumber) hv (fun s => rfl) broadcast
  | mode v | ackAlert contact =>
    obtain ⟨rfl, rfl⟩ := Prod.mk.inj (Option.some.inj hbody)
    exact carries_byte (by decide) rfl hwf fun s body h => h ▸ rfl
  | queryDevice item | queryBoard item | queryPanel item | queryBank item | queryInputs item | querySettings item =>
    obtain ⟨rfl, rfl⟩ := Prod.mk.inj (Option.some.inj hbody)
    exact carries_query (by decide) hwf (fun s => rfl) broadcast
  | queryUnknownKind kind item =>
    obtain ⟨rfl, rfl⟩ := Prod.mk.inj (Option.some.inj hbody)
    simp only [Instr.wf, Bool.and_eq_true] at hwf
    obtain ⟨⟨hkind, hitem⟩, -⟩ := hwf
    exact carries_query (lt_of_fitsBytes hkind) hitem (fun s => rfl) broadcast
  | restart b =>
    obtain ⟨rfl, rfl⟩ := Prod.mk.inj (Option.some.inj hbody)
    obtain rfl := hrestart b rfl
    exact ⟨by decide, by decide, rfl, fun s => rfl⟩
  | _ => cases hbody

/-! ### The cell (R165) -/

/-- A cell's characters read back: a good cell, its kind, its destination and its body. -/
theorem cellOf_read {kind destination : Nat} {body : List Byte} (hkind : kind < 256) (hdest : destination < 256)
    (hbody : body.length ≤ 250) :
    GoodCell (cellOf kind destination body) ∧ byteAt (cellOf kind destination body) 0 = kind ∧
      byteAt (cellOf kind destination body) 1 = destination ∧ ((cellOf kind destination body).drop 3).dropLast = body :=
  ⟨goodCell_withCheck rfl hbody kind destination, Nat.mod_eq_of_lt hkind, Nat.mod_eq_of_lt hdest, List.dropLast_concat⟩

/-- A carried command taken from its cell does what the command does. -/
theorem takeCell_carries {c : Instr} {kind destination : Nat} {body : List Byte} (hdest : destination < 256)
    (h : Carries c kind body (decide (destination = 0))) (s : State) :
    Host.Outcome.next (takeCell (cellOf kind destination body) s) = exec c s := by
  obtain ⟨hkind, hlength, hpermitted, hexec⟩ := h
  obtain ⟨-, hread, hto, hbody⟩ := cellOf_read hkind hdest hlength
  rw [hexec]
  unfold takeCell
  dsimp only
  rw [hread, hto, hbody, hpermitted]

/-- Settles O57: the cell is good, its kind and length are permitted, and its owner does the command. -/
theorem cellOfACommandDoesTheCommand : Obligations.CellOfACommandDoesTheCommand := by
  intro c cell s hwf hrx
  refine ⟨fun hnode hrestart hencode => ?_, fun hrestart hencode => ?_⟩
  · obtain ⟨⟨kind, body⟩, hbody, rfl⟩ := Option.map_eq_some_iff.mp hencode
    have hzero : s.trunk.node.val ≠ 0 := fun h => hnode (Fin.ext h)
    have hcarries := carries_of_wf hwf hbody (broadcast := decide (s.trunk.node.val = 0)) fun b hb => by
      rw [decide_eq_false hzero]
      cases b with
      | false => rfl
      | true => exact absurd hb hrestart
    have hdest : s.trunk.node.val < 256 := by omega
    obtain ⟨⟨hshape, hgood⟩, -, hto, -⟩ := cellOf_read hcarries.1 hdest hcarries.2.1
    rw [exec_trunkCell hshape hrx, judgeTrunk_own hgood (by rw [hto]; exact hzero) hto]
    exact takeCell_carries hdest hcarries _
  · obtain ⟨⟨kind, body⟩, hbody, rfl⟩ := Option.map_eq_some_iff.mp hencode
    have hcarries := carries_of_wf hwf hbody (broadcast := decide (0 = 0)) fun b hb => by
      cases b with
      | true => rfl
      | false => exact absurd hb hrestart
    obtain ⟨⟨hshape, hgood⟩, -, hto, -⟩ := cellOf_read hcarries.1 (by decide : 0 < 256) hcarries.2.1
    rw [exec_trunkCell hshape hrx, judgeTrunk_broadcast hgood hto]
    exact takeCell_carries (by decide) hcarries _

end Sys2Proof.Machine

/-! The boards through a second: entries expire, grow older and are derived again, and the rows that show them are
marked (R13 to R19, R43, R85 to R87, R93). -/

namespace Sys2Proof.Machine

open Claims

/-! ### One board's change, and its notice -/

/-- A board changes: some entries leave, the others stay in their order, and only those shown anew draw otherwise. -/
def BoardChange (before after : List Entry) (leaves anew : Entry → Bool) : Prop :=
  ∃ g : Entry → Entry, (∀ e, (g e).sid = e.sid) ∧ (∀ e, anew e = false → drawnOf (g e) = drawnOf e) ∧
    after = (before.filter fun e => !leaves e).map g

/-- The entry of an id, as it is drawn. -/
def drawnById (l : List Entry) (sid : Nat) : Option Entry := (l.find? fun e => decide (e.sid = sid)).map drawnOf

theorem drawnById_isSome {l : List Entry} {sid : Nat} : (drawnById l sid).isSome = true ↔ sid ∈ l.map Entry.sid := by
  unfold drawnById
  rw [Option.isSome_map, List.find?_isSome]
  simp

section
variable {b : Fin 8} {before after : List Entry} {leaves anew : Entry → Bool}

/-- The ids that a board's change names. -/
theorem mem_changedIds {sid : Nat} :
    sid ∈ (before.filter leaves ++ (before.filter fun e => !leaves e).filter anew).map Entry.sid ↔
      ∃ e ∈ before, e.sid = sid ∧ (leaves e = true ∨ anew e = true) := by
  simp only [List.mem_map, List.mem_append, List.mem_filter]
  constructor
  · rintro ⟨e, (⟨he, hleaves⟩ | ⟨⟨he, -⟩, hanew⟩), rfl⟩
    · exact ⟨e, he, rfl, .inl hleaves⟩
    · exact ⟨e, he, rfl, .inr hanew⟩
  · rintro ⟨e, he, rfl, h⟩
    cases hleaves : leaves e with
    | true => exact ⟨e, .inl ⟨he, hleaves⟩, rfl⟩
    | false => exact ⟨e, .inr ⟨⟨he, by simp [hleaves]⟩, h.resolve_left (by simp [hleaves])⟩, rfl⟩

/-- A board whose change names an id gives a notice of it. -/
theorem changeNotice_of {e : Entry} (he : e ∈ before) (h : leaves e = true ∨ anew e = true) :
    ∃ n, changeNotice b before leaves anew = some n ∧ n.board = b ∧ e.sid ∈ n.ids ∧
      n.range = (before.findIdx? leaves).map fun first => (first, before.length - 1) := by
  have hmem := mem_changedIds.mpr ⟨e, he, rfl, h⟩
  refine ⟨_, if_neg (fun hnil => ?_), rfl, hmem, rfl⟩
  rw [hnil] at hmem
  cases hmem

theorem changeNotice_ids {n : Notice} (h : changeNotice b before leaves anew = some n) :
    n.board = b ∧ ∀ sid, sid ∈ n.ids ↔ ∃ e ∈ before, e.sid = sid ∧ (leaves e = true ∨ anew e = true) := by
  unfold changeNotice at h
  dsimp only at h
  split at h
  · cases h
  · obtain rfl := Option.some.inj h
    exact ⟨rfl, fun sid => mem_changedIds⟩

/-- Before the first entry that leaves, every entry keeps its place. -/
theorem BoardChange.get_of_stays {g : Entry → Entry} {q : Nat} (h : ∀ j e, j ≤ q → before[j]? = some e → leaves e = false) :
    ((before.filter fun e => !leaves e).map g)[q]? = before[q]?.map g := by
  induction before generalizing q with
  | nil => rfl
  | cons x rest ih =>
    have hx : leaves x = false := h 0 x (Nat.zero_le _) rfl
    rw [List.filter_cons_of_pos (by simp [hx]), List.map_cons]
    cases q with
    | zero => rfl
    | succ q => exact ih fun j e hj hget => h (j + 1) e (by omega) hget

/-- A position that draws otherwise after a change is reached by its notice (R15, R17, R43). -/
theorem BoardChange.reaches_position (h : BoardChange before after leaves anew) {q : Nat}
    (hne : after[q]?.map drawnOf ≠ before[q]?.map drawnOf) :
    ∃ n, changeNotice b before leaves anew = some n ∧ n.board = b ∧
      ((∃ f l, n.range = some (f, l) ∧ f ≤ q) ∨ ∃ e, after[q]? = some e ∧ e.sid ∈ n.ids) := by
  obtain ⟨g, hsid, hdrawn, rfl⟩ := h
  by_cases hstays : ∀ j e, j ≤ q → before[j]? = some e → leaves e = false
  · have hget := BoardChange.get_of_stays (g := g) hstays
    cases hbefore : before[q]? with
    | none =>
      rw [hget, hbefore] at hne
      exact absurd rfl hne
    | some e =>
      rw [hget, hbefore] at hne
      have hanew : anew e = true := by
        by_contra hnot
        exact hne (congrArg some (hdrawn e (Bool.eq_false_iff.mpr hnot)))
      obtain ⟨n, hn, hboard, hin, -⟩ := changeNotice_of (b := b) (leaves := leaves) (List.mem_of_getElem? hbefore) (.inr hanew)
      exact ⟨n, hn, hboard, .inr ⟨g e, by rw [hget, hbefore]; rfl, by rw [hsid]; exact hin⟩⟩
  · obtain ⟨j, e, hj, hget, hleaves⟩ : ∃ j e, j ≤ q ∧ before[j]? = some e ∧ leaves e = true := by
      push Not at hstays
      obtain ⟨j, e, hj, hget, h⟩ := hstays
      exact ⟨j, e, hj, hget, by simpa using h⟩
    obtain ⟨n, hn, hboard, -, hrange⟩ := changeNotice_of (b := b) (anew := anew) (List.mem_of_getElem? hget) (.inl hleaves)
    have hfirst : ∃ first, before.findIdx? leaves = some first ∧ first ≤ q := by
      obtain ⟨hlt, heq⟩ := List.getElem?_eq_some_iff.mp hget
      cases hfind : before.findIdx? leaves with
      | none =>
        have := List.findIdx?_eq_none_iff.mp hfind e (List.mem_of_getElem? hget)
        simp [hleaves] at this
      | some first =>
        refine ⟨first, rfl, ?_⟩
        obtain ⟨hlt', -, hleast⟩ := List.findIdx?_eq_some_iff_getElem.mp hfind
        by_contra hlate
        exact hleast j (by omega) (heq ▸ hleaves)
    obtain ⟨first, hfind, hle⟩ := hfirst
    exact ⟨n, hn, hboard, .inl ⟨first, _, by rw [hrange, hfind]; rfl, hle⟩⟩

/-- The entry of an id that stays keeps it. -/
theorem BoardChange.drawnById_of_stays {g : Entry → Entry} (hsid : ∀ e, (g e).sid = e.sid) {sid : Nat} {e : Entry}
    (hfind : before.find? (fun e => decide (e.sid = sid)) = some e) (hstays : leaves e = false) :
    drawnById ((before.filter fun e => !leaves e).map g) sid = some (drawnOf (g e)) := by
  unfold drawnById
  induction before with
  | nil => cases hfind
  | cons x rest ih =>
    by_cases hx : x.sid = sid
    · rw [List.find?_cons_of_pos (by simpa using hx)] at hfind
      obtain rfl := Option.some.inj hfind
      rw [List.filter_cons_of_pos (by simp [hstays]), List.map_cons, List.find?_cons_of_pos (by simp [hsid, hx])]
      rfl
    · rw [List.find?_cons_of_neg (by simpa using hx)] at hfind
      cases hleaves : leaves x with
      | true => rw [List.filter_cons_of_neg (by simp [hleaves])]; exact ih hfind
      | false =>
        rw [List.filter_cons_of_pos (by simp [hleaves]), List.map_cons, List.find?_cons_of_neg (by simp [hsid, hx])]
        exact ih hfind

theorem BoardChange.sids (h : BoardChange before after leaves anew) {sid : Nat} (hsid : sid ∈ after.map Entry.sid) :
    sid ∈ before.map Entry.sid := by
  obtain ⟨g, hg, -, rfl⟩ := h
  obtain ⟨x, hx, rfl⟩ := List.mem_map.mp hsid
  obtain ⟨e, he, rfl⟩ := List.mem_map.mp hx
  exact List.mem_map.mpr ⟨e, List.mem_of_mem_filter he, (hg e).symm⟩

/-- An id that draws otherwise after a change is named by its notice (R15, R43). -/
theorem BoardChange.names_id (h : BoardChange before after leaves anew) {sid : Nat}
    (hne : drawnById after sid ≠ drawnById before sid) :
    ∃ n, changeNotice b before leaves anew = some n ∧ n.board = b ∧ sid ∈ n.ids := by
  cases hfind : before.find? (fun e => decide (e.sid = sid)) with
  | none =>
    have hbefore : drawnById before sid = none := by unfold drawnById; rw [hfind]; rfl
    have hafter : drawnById after sid = none := by
      rw [← Option.not_isSome_iff_eq_none, drawnById_isSome]
      exact fun hin => absurd (drawnById_isSome.mpr (h.sids hin)) (by simp [hbefore])
    exact absurd (hafter.trans hbefore.symm) hne
  | some e =>
    have he : e.sid = sid := by simpa using List.find?_some hfind
    have hchange : leaves e = true ∨ anew e = true := by
      by_contra hnot
      obtain ⟨hstays, hsame⟩ := not_or.mp hnot
      obtain ⟨g, hsid, hdrawn, rfl⟩ := h
      refine hne ((BoardChange.drawnById_of_stays hsid hfind (Bool.eq_false_iff.mpr hstays)).trans ?_)
      rw [hdrawn e (Bool.eq_false_iff.mpr hsame)]
      unfold drawnById
      rw [hfind]
      rfl
    obtain ⟨n, hn, hboard, hin, -⟩ := changeNotice_of (b := b) (List.mem_of_find?_eq_some hfind) hchange
    exact ⟨n, hn, hboard, he ▸ hin⟩

/-- A record whose id has left its board is VACANT (R93). -/
def vacated (before after : List Entry) (record : Option Nat) : Option Nat :=
  record.filter fun sid => !(decide (sid ∈ before.map Entry.sid) && decide (sid ∉ after.map Entry.sid))

/-- Where no id leaves the board, no record becomes VACANT. -/
theorem vacated_of_stays (h : ∀ sid ∈ before.map Entry.sid, sid ∈ after.map Entry.sid) : vacated before after = id := by
  funext record
  cases record with
  | none => rfl
  | some sid =>
    unfold vacated
    by_cases hin : sid ∈ before.map Entry.sid
    · simp [Option.filter, h sid hin]
    · simp [Option.filter, hin]

/-- The notice of a change leaves the records of a page as the boards have it. -/
theorem BoardChange.vacate_eq (h : BoardChange before after leaves anew) {n : Notice}
    (hn : changeNotice b before leaves anew = some n) : n.vacate after = vacated before after := by
  obtain ⟨-, hids⟩ := changeNotice_ids hn
  funext record
  cases record with
  | none => rfl
  | some sid =>
    have hposition : positionOf sid after = none ↔ sid ∉ after.map Entry.sid := by
      rw [positionOf_eq_none_iff]
      simp
    have hnamed (hgone : sid ∉ after.map Entry.sid) : sid ∈ n.ids ↔ sid ∈ before.map Entry.sid := by
      rw [hids, List.mem_map]
      constructor
      · rintro ⟨e, he, hsid, -⟩
        exact ⟨e, he, hsid⟩
      · rintro ⟨e, he, rfl⟩
        refine ⟨e, he, rfl, .inl ?_⟩
        by_contra hstays
        obtain ⟨g, hg, -, rfl⟩ := h
        exact hgone (List.mem_map.mpr ⟨g e, List.mem_map_of_mem (List.mem_filter.mpr ⟨he, by simpa using hstays⟩), hg e⟩)
    unfold Notice.vacate vacated
    dsimp only
    by_cases hgone : sid ∈ after.map Entry.sid
    · rw [if_neg fun h => hposition.mp h.2 hgone]
      simp [Option.filter, hgone]
    · by_cases hin : sid ∈ before.map Entry.sid
      · rw [if_pos ⟨(hnamed hgone).mpr hin, hposition.mpr hgone⟩]
        simp [Option.filter, hgone, hin]
      · rw [if_neg fun h => hin ((hnamed hgone).mp h.1)]
        simp [Option.filter, hin]

/-- A change that gives no notice loses no id. -/
theorem BoardChange.vacated_of_quiet (h : BoardChange before after leaves anew) (hn : changeNotice b before leaves anew = none) :
    vacated before after = id := by
  refine vacated_of_stays fun sid hin => ?_
  obtain ⟨e, he, rfl⟩ := List.mem_map.mp hin
  have hstays : leaves e = false := by
    by_contra hleaves
    obtain ⟨n, hsome, -⟩ := changeNotice_of (b := b) (anew := anew) he (.inl (by simpa using hleaves))
    rw [hn] at hsome
    cases hsome
  obtain ⟨g, hg, -, rfl⟩ := h
  exact List.mem_map.mpr ⟨g e, List.mem_map_of_mem (List.mem_filter.mpr ⟨he, by simp [hstays]⟩), hg e⟩

end

end Sys2Proof.Machine

/-! The boards' part of a second: expiry and age growth, their notices, and the departure rows that follow them (R13 to
R19, R43, R85 to R87, R93). -/

namespace Sys2Proof.Machine

open Claims

/-! ### Notices at a ROWS zone -/

/-- A display once a notice, where there is one, has reached it. -/
def noticed (sc : Scene) (d : Display) (n : Option Notice) : Display :=
  match n with
  | some n => takeNotice n sc d
  | none => d

theorem noticesTaken_eq (notice : Fin 8 → Option Notice) (s t : State) :
    noticesTaken notice s t = (List.finRange 8).foldl (fun d b => noticed t.scene d (notice b)) s.disp := rfl

theorem noticed_drawn (sc : Scene) (d : Display) (n : Option Notice) : Drawn sc.panel d (noticed sc d n) := by
  cases n with
  | none => exact Drawn.refl d
  | some n => exact takeNotice_drawn sc n d

theorem noticed_views (sc : Scene) (d : Display) (n : Option Notice) : (noticed sc d n).seq.views = d.seq.views := by
  cases n with
  | none => rfl
  | some n => exact (noticeZone_local sc n).foldl_views sc.zones d

section
variable {sc : Scene} (hwf : sc.bank.zones.wf) {z : Nat} {p : Fin 16} {row : PanelRow} {zone : Zone}
  (hz : (z, p, row, zone) ∈ sc.zones) {board : Fin 8} {format first rows gap pages dwell : Nat}
  (hkind : zone.kind = .rows board format first rows gap pages dwell)
include hwf hz

theorem takeNotice_find (n : Notice) (d : Display) :
    (takeNotice n sc d).seq.runtimes.find z = noticeRuntime sc n zone (d.seq.runtimes.find z) :=
  (noticeZone_local sc n).foldl_reads (fun _ _ => trivial) (zones_nodup hwf) hz d

include hkind

/-- A notice of another board leaves the zone's runtime. -/
theorem noticed_find_other {n : Option Notice} (hother : ∀ n', n = some n' → n'.board ≠ board) (d : Display) :
    (noticed sc d n).seq.runtimes.find z = d.seq.runtimes.find z := by
  cases n with
  | none => rfl
  | some n =>
    refine (takeNotice_find hwf hz n d).trans ?_
    unfold noticeRuntime
    rw [hkind]
    exact if_pos (.inl (hother n rfl).symm)

/-- Of the boards' notices the zone's own reaches it, and finds its runtime as it was. -/
theorem noticesTaken_split {notice : Fin 8 → Option Notice} (hboard : ∀ b n, notice b = some n → n.board = b) {s t : State}
    (hscene : t.scene = sc) :
    ∃ d, d.seq.runtimes.find z = s.disp.seq.runtimes.find z ∧ d.seq.views = s.disp.seq.views ∧
      (noticesTaken notice s t).seq.runtimes.find z = (noticed sc d (notice board)).seq.runtimes.find z ∧
      ∀ q y, y ∈ (noticed sc d (notice board)).lines.dirty.get q → y ∈ (noticesTaken notice s t).lines.dirty.get q := by
  have hothers (bs : List (Fin 8)) (hbs : board ∉ bs) (d : Display) :
      (bs.foldl (fun d b => noticed sc d (notice b)) d).seq.runtimes.find z = d.seq.runtimes.find z :=
    List.foldlRecOn bs _ (motive := fun e => e.seq.runtimes.find z = d.seq.runtimes.find z) rfl fun e he b hb =>
      (noticed_find_other hwf hz hkind (fun n hn heq => hbs (heq ▸ (hboard b n hn).symm ▸ hb)) e).trans he
  obtain ⟨pre, post, hsplit⟩ := List.append_of_mem (List.mem_finRange board)
  have hnodup : (pre ++ board :: post).Nodup := hsplit ▸ List.nodup_finRange 8
  obtain ⟨-, htail, hapart⟩ := List.nodup_append.mp hnodup
  have hpre : board ∉ pre := fun h => hapart board h board List.mem_cons_self rfl
  have hpost : board ∉ post := (List.nodup_cons.mp htail).1
  have htaken : noticesTaken notice s t = post.foldl (fun d b => noticed sc d (notice b))
      (noticed sc (pre.foldl (fun d b => noticed sc d (notice b)) s.disp) (notice board)) := by
    rw [noticesTaken_eq, hscene, hsplit, List.foldl_append, List.foldl_cons]
  refine ⟨pre.foldl (fun d b => noticed sc d (notice b)) s.disp, hothers pre hpre _, ?_, ?_, fun q y hy => ?_⟩
  · exact List.foldlRecOn pre _ (motive := fun e => e.seq.views = s.disp.seq.views) rfl fun e he b _ =>
      (noticed_views sc e (notice b)).trans he
  · rw [htaken]
    exact hothers post hpost _
  · rw [htaken]
    exact (Drawn.foldl (panel := sc.panel) (fun d b _ => noticed_drawn sc d (notice b)) _).mem hy

end

/-! ### A stage of the boards -/

/-- A stage in which the boards change, and every row of a panel in NORMAL follows them. -/
structure BoardsStage (s t : State) : Prop where
  tables : t.tables = s.tables
  views : t.disp.seq.views = s.disp.seq.views
  redrawn : Redrawn s t
  sids : ∀ b sid, sid ∈ (t.boards.get b).map Entry.sid → sid ∈ (s.boards.get b).map Entry.sid
  pages : ∀ {z p row zone board format first rows gap pages dwell index snapshot left}, (z, p, row, zone) ∈ s.scene.zones →
    zone.kind = .rows board format first rows gap pages dwell → pages ≠ 1 →
    s.disp.seq.runtimes.find z = some (.page index snapshot left) →
    t.disp.seq.runtimes.find z =
      some (.page index (snapshot.map (vacated (s.boards.get board) (t.boards.get board))) left)
  rows : RowsFollowBoards s t

/-- A stage that leaves the boards, the paged zones and what is dirty. -/
theorem BoardsStage.of_same {s t : State} (htables : t.tables = s.tables) (hviews : t.disp.seq.views = s.disp.seq.views)
    (hredrawn : Redrawn s t) (hboards : t.boards = s.boards)
    (hpages : ∀ {z p row zone board format first rows gap pages dwell}, (z, p, row, zone) ∈ s.scene.zones →
      zone.kind = .rows board format first rows gap pages dwell →
      t.disp.seq.runtimes.find z = s.disp.seq.runtimes.find z) : BoardsStage s t where
  tables := htables
  views := hviews
  redrawn := hredrawn
  sids b sid h := hboards ▸ h
  pages {z p row zone board format first rows gap pages dwell index snapshot left} hz hkind _ hrt := by
    rw [hpages hz hkind, hrt, hboards, vacated_of_stays fun _ h => h, List.map_id]
  rows z p row zone board format first rows gap pages dwell i _ _ _ _ :=
    ⟨fun _ hne => absurd (by rw [hboards]) hne, fun _ _ _ _ _ _ _ hne => absurd (by rw [hboards]) hne⟩

theorem BoardsStage.zones {s t : State} (h : BoardsStage s t) : t.scene.zones = s.scene.zones :=
  zones_of_bank (show t.scene.bank = s.scene.bank from congrArg TableStore.activeBank h.tables)

theorem BoardsStage.trans {s u t : State} (h : BoardsStage s u) (k : BoardsStage u t) : BoardsStage s t where
  tables := k.tables.trans h.tables
  views := k.views.trans h.views
  redrawn := h.redrawn.trans k.redrawn
  sids b sid hin := h.sids b sid (k.sids b sid hin)
  pages {z p row zone board format first rows gap pages dwell index snapshot left} hz hkind hne hrt := by
    have hzone : (z, p, row, zone) ∈ u.scene.zones := h.zones.symm ▸ hz
    have hboth : (vacated (u.boards.get board) (t.boards.get board)) ∘ (vacated (s.boards.get board) (u.boards.get board)) =
        vacated (s.boards.get board) (t.boards.get board) := by
      funext record
      cases record with
      | none => rfl
      | some sid =>
        have hsub := h.sids board sid
        have hsub' := k.sids board sid
        by_cases hs : sid ∈ (s.boards.get board).map Entry.sid <;> by_cases hu : sid ∈ (u.boards.get board).map Entry.sid <;>
          by_cases ht : sid ∈ (t.boards.get board).map Entry.sid <;> simp_all [vacated, Option.filter]
    rw [k.pages hzone hkind hne (h.pages hz hkind hne hrt), List.map_map, hboth]
  rows z p row zone board format first rows gap pages dwell i hz hkind hi hview := by
    have hzone : (z, p, row, zone) ∈ u.scene.zones := h.zones.symm ▸ hz
    obtain ⟨hfirst, hfirstId⟩ := h.rows z p row zone board format first rows gap pages dwell i hz hkind hi hview
    obtain ⟨hsecond, hsecondId⟩ := k.rows z p row zone board format first rows gap pages dwell i hzone hkind hi
      (h.views ▸ hview)
    rw [h.tables] at hsecond hsecondId
    have later {ys : List Nat} (hdirty : Dirty u p ys) : Dirty t p ys := fun y hy => k.redrawn.drawn.mem (hdirty y hy)
    refine ⟨fun hone hne => ?_, fun index snapshot left sid hne hrt hsid hdiffers => ?_⟩
    · by_cases hmoved : ((u.boards.get board)[first + i]?).map drawnOf = ((s.boards.get board)[first + i]?).map drawnOf
      · exact hsecond hone (hmoved ▸ hne)
      · exact later (hfirst hone hmoved)
    · by_cases hmoved : drawnById (u.boards.get board) sid = drawnById (s.boards.get board) sid
      · have hkept : vacated (s.boards.get board) (u.boards.get board) (some sid) = some sid := by
          have hiff : sid ∈ (u.boards.get board).map Entry.sid ↔ sid ∈ (s.boards.get board).map Entry.sid := by
            rw [← drawnById_isSome, ← drawnById_isSome, hmoved]
          by_cases hs : sid ∈ (s.boards.get board).map Entry.sid
          · simp [vacated, Option.filter, hiff.mpr hs]
          · simp [vacated, Option.filter, hs]
        refine hsecondId index _ left sid hne (h.pages hz hkind hne hrt) ?_ fun heq => hdiffers (heq.trans hmoved)
        rw [List.getElem?_map, hsid, Option.map_some, hkept]
      · exact later (hfirstId index snapshot left sid hne hrt hsid hmoved)

/-- A change of all boards, each with the notice of what leaves it and is shown anew, is such a stage (R17, R18). -/
theorem changeBoards_stage {s : State} (hwf : s.tables.activeBank.zones.wf) {f : Fin 8 → List Entry → List Entry × Option Notice}
    {leaves anew : Fin 8 → Entry → Bool}
    (hchange : ∀ b, BoardChange (s.boards.get b) (f b (s.boards.get b)).1 (leaves b) (anew b))
    (hnotice : ∀ b, (f b (s.boards.get b)).2 = changeNotice b (s.boards.get b) (leaves b) (anew b)) :
    BoardsStage s (s.changeBoards f) := by
  have htables : (s.changeBoards f).tables = s.tables := changeBoards_changes s f .tables (by decide)
  have hbank : (s.changeBoards f).scene.bank = s.scene.bank := congrArg TableStore.activeBank htables
  have hzones := zones_of_bank hbank
  have hwf' : (s.changeBoards f).scene.bank.zones.wf := by rw [hbank]; exact hwf
  have hboard (b : Fin 8) (n : Notice) (hn : (f b (s.boards.get b)).2 = some n) : n.board = b :=
    (changeNotice_ids ((hnotice b).symm.trans hn)).1
  have hat {z p row zone board format first rows gap pages dwell} (hz : (z, p, row, zone) ∈ s.scene.zones)
      (hkind : zone.kind = .rows board format first rows gap pages dwell) :=
    noticesTaken_split (s := s) (t := s.changeBoards f) hwf' (hzones.symm ▸ hz) hkind
      (notice := fun b => (f b (s.boards.get b)).2) hboard rfl
  have hboards (b : Fin 8) : (s.changeBoards f).scene.boards.get b = (f b (s.boards.get b)).1 := changeBoards_get s f b
  refine ⟨htables, changeBoards_changes s f .views (by decide), changeBoards_redrawn s f, fun b sid h => ?_, ?_, ?_⟩
  · rw [changeBoards_get] at h
    exact (hchange b).sids h
  · intro z p row zone board format first rows gap pages dwell index snapshot left hz hkind hne hrt
    obtain ⟨d, hd, -, hfind, -⟩ := hat hz hkind
    rw [changeBoards_disp, hfind, changeBoards_get]
    cases hn : (f board (s.boards.get board)).2 with
    | none =>
      rw [(hchange board).vacated_of_quiet ((hnotice board).symm.trans hn), List.map_id]
      exact hd.trans hrt
    | some n =>
      refine (takeNotice_find hwf' (hzones.symm ▸ hz) n d).trans ?_
      rw [hd, hrt]
      unfold noticeRuntime
      rw [hkind]
      dsimp only
      rw [if_neg (not_or.mpr ⟨fun h => h (hboard board n hn).symm, hne⟩), hboards,
        (hchange board).vacate_eq ((hnotice board).symm.trans hn)]
  · intro z p row zone board format first rows gap pages dwell i hz hkind hi hview
    obtain ⟨d, hd, hviews, -, hdirty⟩ := hat hz hkind
    have hmarked {n : Notice} (hn : (f board (s.boards.get board)).2 = some n) {ys : List Nat}
        (hys : ∀ y ∈ ys, y ∈ noticeLines (s.changeBoards f).scene n row zone (s.disp.seq.runtimes.find z)) :
        Dirty (s.changeBoards f) p ys := fun y hy => by
      rw [changeBoards_disp]
      refine hdirty p y ?_
      rw [hn]
      exact (mem_takeNotice hwf' n (hviews ▸ hview) y).mpr (.inr ⟨z, row, zone, hzones.symm ▸ hz, hd ▸ hys y hy⟩)
    have hlines {n : Notice} (hn : n.board = board) {y : Nat}
        (hy : y ∈ zone.rowLines row (s.tables.activeBank.font zone.font).height gap i)
        (hreach : (pages = 1 ∧ ((∃ f l, n.range = some (f, l) ∧ f ≤ first + i) ∨
            ∃ e, ((s.changeBoards f).scene.boards.get n.board)[first + i]? = some e ∧ e.sid ∈ n.ids)) ∨
          (pages ≠ 1 ∧ ∃ index snapshot left sid, s.disp.seq.runtimes.find z = some (.page index snapshot left) ∧
            snapshot[i]? = some (some sid) ∧ sid ∈ n.ids)) :
        y ∈ noticeLines (s.changeBoards f).scene n row zone (s.disp.seq.runtimes.find z) := by
      subst hn
      exact mem_noticeLines.mpr ⟨format, first, rows, gap, pages, dwell, i, hkind, hi, by rw [hbank]; exact hy, hreach⟩
    refine ⟨fun hone hne => ?_, fun index snapshot left sid hne hrt hsid hdiffers => ?_⟩
    · rw [changeBoards_get] at hne
      obtain ⟨n, hn, hboardn, hreach⟩ := (hchange board).reaches_position (b := board) hne
      refine hmarked ((hnotice board).trans hn) fun y hy => hlines hboardn hy (.inl ⟨hone, ?_⟩)
      rw [hboardn, hboards]
      exact hreach
    · rw [changeBoards_get] at hdiffers
      obtain ⟨n, hn, hboardn, hin⟩ := (hchange board).names_id (b := board) hdiffers
      exact hmarked ((hnotice board).trans hn) fun y hy =>
        hlines hboardn hy (.inr ⟨hne, index, snapshot, left, sid, hrt, hsid, hin⟩)

/-! ### The second's two stages (R13 to R15) -/

theorem drawnOf_derived {st : Settings} {clock : StationClock} {e : Entry} (h : shownAnew st clock e = false) :
    drawnOf (derived st clock e) = drawnOf e := by
  have hsame : derive st clock e = (e.field, e.role) := by simpa [shownAnew] using h
  unfold derived
  rw [hsame]

theorem clockZones_stage {s : State} (hwf : s.tables.activeBank.zones.wf) : BoardsStage s (s.onDisplay clockZones) := by
  refine .of_same rfl ((clockZone_local s.scene).foldl_views _ _) ⟨rfl, clockZones_drawn s.scene s.disp⟩ rfl
    fun {z p row zone board format first rows gap pages dwell} hz hkind => ?_
  refine ((clockZone_local s.scene).foldl_reads (fun _ _ => trivial) (zones_nodup hwf) hz s.disp).trans ?_
  unfold clockRuntime
  rw [hkind]

theorem expireBoards_stage {s : State} (hwf : s.tables.activeBank.zones.wf) (expire : Bool) :
    BoardsStage s (s.changeBoards (expireBoard s.settings s.clock expire)) := by
  refine changeBoards_stage hwf (leaves := fun _ e => expire && s.clock.running && gone s.settings s.clock.value e)
    (anew := fun _ => shownAnew s.settings s.clock) (fun b => ⟨derived s.settings s.clock, fun _ => rfl,
      fun e h => drawnOf_derived h, ?_⟩) fun b => ?_ <;> rw [expireBoard_eq]

theorem tickClock_stage {s : State} (hwf : s.tables.activeBank.zones.wf) : BoardsStage s (tickClock s) := by
  have clocked : BoardsStage s { s with clock := secondClock s.clock } :=
    .of_same rfl rfl ⟨rfl, Drawn.refl _⟩ rfl fun _ _ => rfl
  unfold tickClock
  dsimp only
  split
  · exact clocked
  · have hexpired := expireBoards_stage (s := { s with clock := secondClock s.clock }) hwf
      (decide ((secondClock s.clock).value ≠ s.clock.value))
    refine clocked.trans (hexpired.trans (clockZones_stage ?_))
    rw [hexpired.tables]
    exact hwf

/-- Growing older draws otherwise only where it shows (R13). -/
theorem drawnOf_grown {st : Settings} {clock : StationClock} {e : Entry} (h : e.growthShows st clock = false) :
    drawnOf (e.grown st clock) = drawnOf e := by
  unfold Entry.grown
  split
  next hstale =>
    have hsame : shownAnew st clock e.older = false := by
      unfold Entry.growthShows at h
      rw [hstale, Bool.true_and] at h
      exact h
    exact drawnOf_derived hsame
  next => rfl

theorem growAges_stage {s : State} (hwf : s.tables.activeBank.zones.wf) : BoardsStage s (growAges s) := by
  refine changeBoards_stage hwf (leaves := fun _ _ => false) (anew := fun _ => Entry.growthShows s.settings s.clock)
    (fun b => ⟨Entry.grown s.settings s.clock, fun e => (keepsPosted_grown _ _ e).1, fun e h => drawnOf_grown h, ?_⟩) fun b => ?_
  · simp [growBoard]
  · exact noticeOf_none_eq_changeNotice b _ _

/-- The clock's second and the ages' one after the other. -/
theorem aged_stage {s : State} (hwf : s.tables.activeBank.zones.wf) : BoardsStage s (growAges (tickClock s)) := by
  have hclock := tickClock_stage hwf
  refine hclock.trans (growAges_stage ?_)
  rw [hclock.tables]
  exact hwf

end Sys2Proof.Machine

/-! O23: what a second does to the boards and the rows that show them, and the second past the stale period (R13 to
R15). -/

namespace Sys2Proof.Machine

open Claims

/-! ### The rest of the second leaves the boards -/

/-- What the boards' part of a second has done stands: its tables, its boards, and all it has marked. -/
def BoardsStand (w u : State) : Prop :=
  u.tables = w.tables ∧ u.boards = w.boards ∧ ∀ p y, y ∈ w.disp.lines.dirty.get p → y ∈ u.disp.lines.dirty.get p

theorem BoardsStand.of_changes {w u t : State} (h : BoardsStand w u) {ps : List Part} (k : OnlyChanges ps u t)
    (htables : .tables ∉ ps) (hboards : .boards ∉ ps)
    (hmarks : ∀ p y, y ∈ u.disp.lines.dirty.get p → y ∈ t.disp.lines.dirty.get p) : BoardsStand w t :=
  ⟨(k .tables htables).trans h.1, (k .boards hboards).trans h.2.1, fun p y hy => hmarks p y (h.2.2 p y hy)⟩

theorem boardsStand_laterKept {w : State} (hswap : w.tables.swapPending = false) : LaterKept (BoardsStand w) where
  slot u i h := h.of_changes (tickSlot_changes i u) (by decide) (by decide) fun _ _ => (tickSlot_redrawn i u).drawn.mem
  dwells u h := h.of_changes (onDisplay_changes tickDwells_changes u) (by decide) (by decide) fun _ _ =>
    (tickDwells_drawn u.scene u.disp).mem
  language u dwell _ h := h.of_changes (onDisplay_changes (fun sc d => tickLanguage_changes dwell sc d) u) (by decide)
    (by decide) fun _ _ => (tickLanguage_drawn u.scene dwell u.disp).mem
  silence u h := h.of_changes (tickSilence_changes u) (by decide) (by decide) fun _ _ => (tickSilence_redrawn u).drawn.mem
  swap u h := by
    rw [tickSwap_none (h.1.symm ▸ hswap)]
    exact h
  refresh u cycle h := h.of_changes (onDisplay_changes (refreshPanels_changes cycle) u) (by decide) (by decide)
    fun _ _ => dirty_refreshPanels cycle u.scene
  probes u h := h.of_changes (onDisplay_changes (fun _ d => tickProbes_changes d) u) (by decide) (by decide) fun p y hy => by
    have hsame : (tickProbes u.disp).lines.dirty = u.disp.lines.dirty := (tickProbes_changes u.disp).dirty_eq (by decide)
    show y ∈ (tickProbes u.disp).lines.dirty.get p
    rw [hsame]
    exact hy

/-- A second with no swap pending leaves the rows as its boards' part does. -/
theorem takeSecond_boardsStand {s : State} (hwf : s.tables.activeBank.zones.wf) (hswap : s.tables.swapPending = false) :
    BoardsStand (growAges (tickClock s)) (takeSecond s) :=
  (boardsStand_laterKept ((aged_stage hwf).tables.symm ▸ hswap)).takeSecond ⟨rfl, rfl, fun _ _ => id⟩

theorem takeSecond_rowsFollow {s : State} (hwf : s.tables.activeBank.zones.wf) (hswap : s.tables.swapPending = false) :
    RowsFollowBoards s (takeSecond s) := by
  obtain ⟨-, hboards, hdirty⟩ := takeSecond_boardsStand hwf hswap
  intro z p row zone board format first rows gap pages dwell i hz hkind hi hview
  obtain ⟨hplace, hid⟩ := (aged_stage hwf).rows z p row zone board format first rows gap pages dwell i hz hkind hi hview
  rw [hboards]
  exact ⟨fun hone hne y hy => hdirty p y (hplace hone hne y hy), fun index snapshot left sid hne hrt hsid hdiffers y hy =>
    hdirty p y (hid index snapshot left sid hne hrt hsid hdiffers y hy)⟩

/-! ### The boards after a second (R13 to R15) -/

/-- Growing older leaves the posted fields and adds a second to the age. -/
theorem unshown_grown (st : Settings) (clock : StationClock) (e : Entry) :
    unshown (e.grown st clock) = unshown { e with age := min 65535 (e.age + 1) } := by
  rw [← saturate_eq_min]
  unfold Entry.grown
  split <;> rfl

theorem staleAge_older {period : Nat} {e : Entry} (hage : e.age ≤ 65535) (h : e.justStale period = false) :
    staleAge period e.older.age = staleAge period e.age := by
  have hnot : ¬(period ≠ 0 ∧ e.age = period ∧ e.age < 65535) := of_decide_eq_false h
  have holder : e.older.age = min 65535 (e.age + 1) := saturate_eq_min _ _
  unfold staleAge
  rw [holder]
  refine decide_eq_decide.mpr ⟨fun ⟨hp, hlt⟩ => ⟨hp, ?_⟩, fun ⟨hp, hlt⟩ => ⟨hp, ?_⟩⟩
  · by_contra hle
    exact hnot ⟨hp, by omega, by omega⟩
  · omega

/-- The derivation of an entry that has not just passed the stale period does not turn on a second's age. -/
theorem derive_older {st : Settings} {clock : StationClock} {e : Entry} (hage : e.age ≤ 65535)
    (h : e.justStale st.stalePeriod = false) : derive st clock e.older = derive st clock e := by
  have hkey : e.older.key = e.key := rfl
  have hrole : delayRole st.delayThreshold e.older = delayRole st.delayThreshold e := rfl
  have hstatus : e.older.status = e.status := rfl
  have hsched : e.older.sched = e.sched := rfl
  unfold derive
  rw [staleAge_older hage h, hkey, hrole, hstatus, hsched]

/-- An entry that shows what its derivation gives still does when it is a second older. -/
theorem grown_shows {st : Settings} {clock : StationClock} {e : Entry} (hage : e.age ≤ 65535)
    (h : (e.field, e.role) = derive st clock e) :
    ((e.grown st clock).field, (e.grown st clock).role) = derive st clock (e.grown st clock) := by
  unfold Entry.grown
  cases hstale : e.justStale st.stalePeriod with
  | true => exact (derive_rederived st clock e.older).symm
  | false => exact h.trans (derive_older hage hstale).symm

theorem tickClock_boards_moved {s : State}
    (hmoved : ¬((secondClock s.clock).value = s.clock.value ∧ (secondClock s.clock).state = s.clock.state)) (b : Fin 8) :
    (tickClock s).boards.get b = ((s.boards.get b).filter fun e =>
      !(decide ((secondClock s.clock).value ≠ s.clock.value) && (secondClock s.clock).running &&
        gone s.settings (secondClock s.clock).value e)).map (derived s.settings (secondClock s.clock)) := by
  rw [tickClock_changed hmoved]
  show (State.changeBoards _ _).boards.get b = _
  rw [changeBoards_get, expireBoard_eq]
  rfl

theorem tickClock_boards_unmoved {s : State}
    (h : (secondClock s.clock).value = s.clock.value ∧ (secondClock s.clock).state = s.clock.state) :
    (tickClock s).boards = s.boards := by
  unfold tickClock
  dsimp only
  rw [if_pos h]

/-- Each board after a second: what stays of it, a second older. -/
theorem takeSecond_boards (s : State) (b : Fin 8) :
    (takeSecond s).boards.get b =
      ((tickClock s).boards.get b).map (Entry.grown s.settings (secondClock s.clock)) := by
  have hboards : (takeSecond s).boards = (growAges (tickClock s)).boards := takeSecond_after_ages s .boards (by decide)
  have hsettings : (tickClock s).settings = s.settings := tickClock_changes s .settings (by decide)
  rw [hboards, growAges, changeBoards_get, hsettings, tickClock_clock]
  rfl

theorem takeSecond_posted (s : State) (b : Fin 8) :
    ((takeSecond s).boards.get b).map unshown =
      ((s.boards.get b).filter fun e =>
        !(decide ((secondClock s.clock).value ≠ s.clock.value) &&
          (decide ((secondClock s.clock).state = .synced) || decide ((secondClock s.clock).state = .drifting)) &&
          gone s.settings (secondClock s.clock).value e)).map fun e => unshown { e with age := min 65535 (e.age + 1) } := by
  have hrunning : (secondClock s.clock).running =
      (decide ((secondClock s.clock).state = .synced) || decide ((secondClock s.clock).state = .drifting)) :=
    Bool.decide_or _ _
  rw [takeSecond_boards, List.map_map]
  by_cases hmoved : (secondClock s.clock).value = s.clock.value ∧ (secondClock s.clock).state = s.clock.state
  · rw [tickClock_boards_unmoved hmoved, decide_eq_false (not_not.mpr hmoved.1)]
    simp only [Bool.false_and, Bool.not_false, List.filter_true]
    exact List.map_congr_left fun e _ => unshown_grown _ _ e
  · rw [tickClock_boards_moved hmoved, hrunning, List.map_map]
    exact List.map_congr_left fun e _ => unshown_grown _ _ _

/-- Where the second changes the clock, every entry shows what its derivation gives. -/
theorem takeSecond_shows {s : State} (hok : BoardsOk s)
    (hmoved : (secondClock s.clock).value ≠ s.clock.value ∨ (secondClock s.clock).state ≠ s.clock.state) (b : Fin 8) :
    ∀ e ∈ (takeSecond s).boards.get b, (e.field, e.role) = derive s.settings (secondClock s.clock) e := by
  intro e he
  rw [takeSecond_boards, tickClock_boards_moved (not_and_or.mpr hmoved)] at he
  obtain ⟨x, hx, rfl⟩ := List.mem_map.mp he
  obtain ⟨a, ha, rfl⟩ := List.mem_map.mp hx
  obtain ⟨-, -, -, hentries⟩ := hok b
  obtain ⟨-, -, -, -, -, -, -, -, hage⟩ := hentries a (List.mem_of_mem_filter ha)
  exact grown_shows (e := derived s.settings (secondClock s.clock) a) hage (derive_rederived s.settings _ a).symm

/-! ### The second past the stale period (R13) -/

section
variable {b : Fin 8} {x : Entry} {s : State} (hok : BoardOk (s.boards.get b)) (hx : x ∈ s.boards.get b)
  (hperiod : s.settings.stalePeriod ≠ 0) (hage : x.age = s.settings.stalePeriod) (hlast : x.age < 65535)

include hperiod hage hlast in
theorem justStale_of : x.justStale s.settings.stalePeriod = true := decide_eq_true ⟨hperiod, hage, hlast⟩

include hlast in
theorem older_of : x.older = { x with age := x.age + 1 } := by
  unfold Entry.older
  rw [saturate_eq_min, Nat.min_eq_right (by omega)]

include hok hx in
/-- On a board in order an id names one entry. -/
theorem eq_of_sid {e : Entry} (he : e ∈ s.boards.get b) (hsid : e.sid = x.sid) : e = x :=
  List.inj_on_of_nodup_map hok.2.1 he hx hsid

include hok hx in
/-- Of a board in order a test of an id picks its entry, where that passes. -/
theorem filter_sid (test : Entry → Bool) :
    (s.boards.get b).filter (fun e => decide (e.sid = x.sid) && test e) = if test x then [x] else [] := by
  have hnodup : (s.boards.get b).Nodup := List.Nodup.of_map _ hok.2.1
  have hsame : (s.boards.get b).filter (fun e => decide (e.sid = x.sid) && test e) =
      (s.boards.get b).filter fun e => (e == x) && test x := by
    refine List.filter_congr fun e he => ?_
    by_cases hsid : e.sid = x.sid
    · obtain rfl := eq_of_sid hok hx he hsid
      simp
    · have hne : e ≠ x := fun h => hsid (h ▸ rfl)
      simp [hsid, hne]
  rw [hsame]
  cases test x with
  | true =>
    simp only [Bool.and_true, if_true]
    rw [List.filter_beq, List.count_eq_one_of_mem hnodup hx]
    rfl
  | false => simp

include hok hx hperiod hage hlast

/-- The board with the one entry a second older, and its notice. -/
theorem growOne_of :
    growOne s.settings s.clock x.sid b (s.boards.get b) =
      ((s.boards.get b).map fun e =>
          if e.sid = x.sid then derived s.settings s.clock { e with age := e.age + 1 } else e,
        if derive s.settings s.clock { x with age := x.age + 1 } = (x.field, x.role) then none else some ⟨b, none, [x.sid]⟩) := by
  have hstale := justStale_of hperiod hage hlast
  have holder := older_of hlast
  unfold growOne
  refine Prod.ext (List.map_congr_left fun e he => ?_) ?_
  · dsimp only
    by_cases hsid : e.sid = x.sid
    · obtain rfl := eq_of_sid hok hx he hsid
      rw [if_pos rfl]
      refine (if_pos (by simp [hstale])).trans ?_
      unfold Entry.grown
      rw [if_pos hstale, holder]
      rfl
    · rw [if_neg hsid]
      exact if_neg (by simp [hsid])
  · dsimp only
    have hpick : ((s.boards.get b).filter fun e => decide (e.sid = x.sid) && e.justStale s.settings.stalePeriod &&
        e.growthShows s.settings s.clock) = if shownAnew s.settings s.clock { x with age := x.age + 1 } then [x] else [] := by
      have htest := filter_sid hok hx fun e => e.justStale s.settings.stalePeriod && e.growthShows s.settings s.clock
      simp only [← Bool.and_assoc] at htest
      rw [htest, hstale, Bool.true_and]
      unfold Entry.growthShows
      rw [hstale, Bool.true_and, holder]
      rfl
    rw [hpick]
    unfold shownAnew
    by_cases hshows : derive s.settings s.clock { x with age := x.age + 1 } = (x.field, x.role)
    · rw [if_pos hshows, decide_eq_false (not_not.mpr hshows)]
      rfl
    · rw [if_neg hshows, decide_eq_true hshows]
      rfl

end

/-- A NORMAL or ARRIVING entry past the stale period shows STALE (R38). -/
theorem derived_stale {st : Settings} {clock : StationClock} {x : Entry} (hperiod : st.stalePeriod ≠ 0)
    (hage : x.age = st.stalePeriod) (hstatus : x.status = .normal ∨ x.status = .arriving) :
    derived st clock { x with age := x.age + 1 } = { x with age := x.age + 1, field := .staleClock x.sched, role := .stale } := by
  have hstale : staleAge st.stalePeriod (x.age + 1) = true := decide_eq_true ⟨hperiod, by omega⟩
  have hderive : derive st clock { x with age := x.age + 1 } = (.staleClock x.sched, .stale) := by
    unfold derive
    dsimp only
    rcases hstatus with h | h <;> simp [h, hstale]
  unfold derived
  rw [hderive]

/-- Settles O23: the boards' two stages, the stages after them, and the one entry's second. -/
theorem secondsAgeExpireAndStaleEntries : Obligations.SecondsAgeExpireAndStaleEntries := by
  refine ⟨fun s hok => ⟨takeSecond s, rfl, fun hswap hwf => takeSecond_rowsFollow hwf hswap, fun b => ?_⟩,
    fun b x s hok hx hperiod hage hlast => ?_⟩
  · rw [takeSecond_clock]
    exact ⟨takeSecond_posted s b, fun hmoved => takeSecond_shows hok hmoved b⟩
  · have hgrown := growOne_of hok hx hperiod hage hlast
    have hexec : exec (.stalePeriodPassed b x.sid) s = .next (s.setBoard b _ _) := congrArg
      (fun r : List Entry × Option Notice => Host.Outcome.next (s.setBoard b r.1 r.2)) hgrown
    exact ⟨_, hexec, setBoard_get_self s b _ _, derived_stale hperiod hage, setBoard_otherBoards s b _ _,
      setBoard_noticed s b _ _, setBoard_changes s b _ _⟩

end Sys2Proof.Machine

/-! The counts that a second steps: durations, the language count, the silence timer, refresh cursors and probe timers
(R104, R109, R119, R127, R152, R173). -/

namespace Sys2Proof.Machine

open Claims

/-! ### The stages of a second -/

/-- A second up to its dwells: the clock, the ages and the durations. -/
def timedSecond (s : State) : State := tickSlots (growAges (tickClock s))

/-- A second up to its silence timer: the dwells and the language count too. -/
def countedSecond (s : State) : State :=
  ((timedSecond s).onDisplay tickDwells).onDisplay (tickLanguage s.settings.languageDwell)

theorem aged_changes (s : State) : OnlyChanges [.clock, .boards, .dirty, .runtimes] s (growAges (tickClock s)) :=
  ((tickClock_changes s).mono (by decide)).trans ((growAges_changes _).mono (by decide))

theorem timedSecond_changes (s : State) :
    OnlyChanges [.clock, .boards, .dirty, .runtimes, .slots, .views, .synthetic, .panels] s (timedSecond s) :=
  ((aged_changes s).mono (by decide)).trans ((tickSlots_changes _).mono (by decide))

theorem dwelledSecond_changes (s : State) :
    OnlyChanges [.clock, .boards, .dirty, .runtimes, .slots, .views, .synthetic, .panels] s
      ((timedSecond s).onDisplay tickDwells) :=
  (timedSecond_changes s).trans ((onDisplay_changes tickDwells_changes _).mono (by decide))

theorem countedSecond_changes (s : State) :
    OnlyChanges [.clock, .boards, .dirty, .runtimes, .slots, .views, .synthetic, .panels, .phase] s (countedSecond s) :=
  ((dwelledSecond_changes s).mono (by decide)).trans
    ((onDisplay_changes (fun sc d => tickLanguage_changes _ sc d) _).mono (by decide))

theorem beforeSwap_eq (s : State) : beforeSwap s = tickSilence (countedSecond s) := by
  have hsettings : (timedSecond s).settings = s.settings := timedSecond_changes s .settings (by decide)
  unfold countedSecond
  rw [← hsettings]
  rfl

/-- What follows the swap, where none is pending. -/
theorem takeSecond_unswapped {s : State} (hswap : s.tables.swapPending = false) : takeSecond s =
    ((beforeSwap s).onDisplay (refreshPanels s.settings.refreshCycle)).onDisplay fun _ d => tickProbes d := by
  have htables : (beforeSwap s).tables = s.tables := beforeSwap_changes s .tables (by decide)
  have hsettings : (beforeSwap s).settings = s.settings := beforeSwap_changes s .settings (by decide)
  have hnone : tickSwap (beforeSwap s) = beforeSwap s := tickSwap_none (by rw [htables]; exact hswap)
  rw [takeSecond_eq, hnone, hsettings]

/-- What a second leaves of the slots stands once the durations have run down. -/
theorem takeSecond_after_slots (s : State) : OnlyChanges (laterParts.filter fun part => decide (part ≠ .slots)) (timedSecond s)
    (takeSecond s) := by
  show OnlyChanges _ (timedSecond s) (((tickSwap (tickSilence (((timedSecond s).onDisplay tickDwells).onDisplay
    (tickLanguage (timedSecond s).settings.languageDwell)))).onDisplay (refreshPanels _)).onDisplay fun _ d => tickProbes d)
  refine OnlyChanges.trans ?_ ((onDisplay_changes (fun _ d => tickProbes_changes d) _).mono (by decide))
  refine OnlyChanges.trans ?_ ((onDisplay_changes (fun sc d => refreshPanels_changes _ sc d) _).mono (by decide))
  refine OnlyChanges.trans ?_ ((tickSwap_changes _).mono (by decide))
  refine OnlyChanges.trans ?_ ((tickSilence_changes _).mono (by decide))
  refine OnlyChanges.trans ?_ ((onDisplay_changes (fun sc d => tickLanguage_changes _ sc d) _).mono (by decide))
  exact (onDisplay_changes tickDwells_changes _).mono (by decide)

/-- What a second leaves of the phase and the silence timer stands before its swap. -/
theorem takeSecond_after_silence (s : State) : OnlyChanges (viewParts ++ [.tables, .cursors, .bus .busA, .bus .busB, .groups])
    (beforeSwap s) (takeSecond s) :=
  (tickSwap_changes _).trans ((takeSecond_after_swap s).mono (by decide))

/-! ### The message durations (R109) -/

/-- A slot whose remaining duration has taken its second. -/
def Slot.ticked (slot : Slot) : Slot :=
  match slot with
  | .active r (some n) => if n ≤ 1 then .free else .active r (some (n - 1))
  | .active r none => .active r none
  | .free => .free
  | .locked r => .locked r

theorem tickSlot_slots (i : Fin 8) (s : State) (j : Fin 8) :
    (tickSlot i s).slots.get j = if i = j then (s.slots.get j).ticked else s.slots.get j := by
  have rests (h : (s.slots.get i).ticked = s.slots.get i) :
      s.slots.get j = if i = j then (s.slots.get j).ticked else s.slots.get j := by
    split
    next heq => rw [← heq, h]
    next => rfl
  have written (slot : Slot) (h : (s.slots.get i).ticked = slot) :
      (s.slots.set i slot).get j = if i = j then (s.slots.get j).ticked else s.slots.get j := by
    rw [Vec.get_set]
    split
    next heq => rw [← heq, h]
    next => rfl
  unfold tickSlot
  cases hslot : s.slots.get i with
  | active r left =>
    rw [hslot] at rests written
    cases left with
    | some n =>
      dsimp only
      split
      next hlast => exact written .free (if_pos hlast)
      next hmore => exact written _ (if_neg hmore)
    | none => exact rests rfl
  | free | locked =>
    rw [hslot] at rests
    exact rests rfl

theorem foldl_tickSlot_slots {l : List (Fin 8)} (hnodup : l.Nodup) (s : State) (j : Fin 8) :
    (l.foldl (fun s i => tickSlot i s) s).slots.get j =
      if j ∈ l then (s.slots.get j).ticked else s.slots.get j := by
  induction l generalizing s with
  | nil => rfl
  | cons i rest ih =>
    obtain ⟨hi, hrest⟩ := List.nodup_cons.mp hnodup
    rw [List.foldl_cons, ih hrest, tickSlot_slots]
    by_cases heq : i = j
    · subst heq
      rw [if_neg hi, if_pos rfl, if_pos List.mem_cons_self]
    · simp only [if_neg heq, List.mem_cons, Ne.symm heq, false_or]

theorem tickSlots_slots (s : State) (i : Fin 8) : (tickSlots s).slots.get i = (s.slots.get i).ticked := by
  unfold tickSlots
  rw [foldl_tickSlot_slots (List.nodup_finRange 8), if_pos (List.mem_finRange i)]

theorem timedSecond_slots (s : State) (i : Fin 8) : (timedSecond s).slots.get i = (s.slots.get i).ticked := by
  have haged : (growAges (tickClock s)).slots = s.slots := aged_changes s .slots (by decide)
  unfold timedSecond
  rw [tickSlots_slots, haged]

theorem takeSecond_slots (s : State) (i : Fin 8) : (takeSecond s).slots.get i = (s.slots.get i).ticked := by
  have hslots : (takeSecond s).slots = (timedSecond s).slots := takeSecond_after_slots s .slots (by decide)
  rw [hslots, timedSecond_slots]

/-! ### The language count (R104) -/

theorem takeSecond_language (s : State) :
    if s.settings.languageDwell ≤ s.disp.seq.langCount + 1 then
      (takeSecond s).disp.seq.phase = (if s.disp.seq.phase = .primary then .secondary else .primary) ∧
        (takeSecond s).disp.seq.langCount = 0
    else (takeSecond s).disp.seq.phase = s.disp.seq.phase ∧
      (takeSecond s).disp.seq.langCount = s.disp.seq.langCount + 1 := by
  have hsilence : OnlyChanges (viewParts ++ [.silence, .tables, .cursors, .bus .busA, .bus .busB, .groups]) (countedSecond s)
      (takeSecond s) := by
    refine OnlyChanges.trans ?_ ((takeSecond_after_silence s).mono (by decide))
    rw [beforeSwap_eq]
    exact (tickSilence_changes _).mono (by decide)
  obtain ⟨hphase, hcount⟩ := hsilence .phase (by decide)
  obtain ⟨hbefore, hbeforeCount⟩ := dwelledSecond_changes s .phase (by decide)
  rw [hphase, hcount]
  unfold countedSecond
  generalize (timedSecond s).onDisplay tickDwells = u at hbefore hbeforeCount
  show if _ then (tickLanguage _ u.scene u.disp).seq.phase = _ ∧ (tickLanguage _ u.scene u.disp).seq.langCount = _
    else (tickLanguage _ u.scene u.disp).seq.phase = _ ∧ (tickLanguage _ u.scene u.disp).seq.langCount = _
  split
  next hflip =>
    rw [tickLanguage_flips (by rw [hbeforeCount]; exact hflip), flipPhase_seq, hbefore]
    refine ⟨?_, rfl⟩
    cases s.disp.seq.phase <;> rfl
  next hmore =>
    have hkeeps : tickLanguage s.settings.languageDwell u.scene u.disp = _ :=
      if_neg (by rw [flipDue, hbeforeCount, decide_eq_true_eq]; exact hmore)
    rw [hkeeps]
    exact ⟨hbefore, congrArg (· + 1) hbeforeCount⟩

/-! ### The silence timer (R173) -/

theorem tickSilence_silence (s : State) :
    (tickSilence s).trunk.silence = min 65535 (s.trunk.silence + 1) ∧
      ((tickSilence s).trunk.silent = true ↔ s.trunk.silent = true ∨
        (s.settings.silenceLimit ≠ 0 ∧ s.settings.silenceLimit ≤ (tickSilence s).trunk.silence)) := by
  unfold tickSilence
  split
  next hdue =>
    obtain ⟨hlimit, -, hreached⟩ := of_decide_eq_true hdue
    exact ⟨saturate_eq_min _ _, iff_of_true rfl (.inr ⟨hlimit, hreached⟩)⟩
  next hquiet =>
    refine ⟨saturate_eq_min _ _, ⟨.inl, fun h => h.elim id fun ⟨hlimit, hreached⟩ => ?_⟩⟩
    by_contra hsilent
    exact hquiet (decide_eq_true ⟨hlimit, Bool.eq_false_iff.mpr hsilent, hreached⟩)

theorem takeSecond_silence (s : State) :
    (takeSecond s).trunk.silence = min 65535 (s.trunk.silence + 1) ∧
      ((takeSecond s).trunk.silent = true ↔ s.trunk.silent = true ∨
        (s.settings.silenceLimit ≠ 0 ∧ s.settings.silenceLimit ≤ (takeSecond s).trunk.silence)) := by
  obtain ⟨hlast, hlastSilent⟩ := takeSecond_after_silence s .silence (by decide)
  obtain ⟨hfirst, hfirstSilent⟩ := countedSecond_changes s .silence (by decide)
  have hsettings : (countedSecond s).settings = s.settings := countedSecond_changes s .settings (by decide)
  have hticked := tickSilence_silence (countedSecond s)
  rw [← beforeSwap_eq, hfirst, hfirstSilent, hsettings] at hticked
  rw [hlast, hlastSilent]
  exact hticked

/-! ### The panels' records (R121, R152) -/

/-- From one display to another nothing of the panels' records has changed but view commands. -/
def CommandsOnly (d e : Display) : Prop :=
  ∀ p, ∃ command, e.panels.get p = { d.panels.get p with viewCommand := command }

theorem CommandsOnly.of_eq {d e : Display} (h : e.panels = d.panels) : CommandsOnly d e := fun p =>
  ⟨(d.panels.get p).viewCommand, by rw [h]⟩

theorem CommandsOnly.trans {d e f : Display} (h : CommandsOnly d e) (k : CommandsOnly e f) : CommandsOnly d f := fun p => by
  obtain ⟨_, hfirst⟩ := h p
  obtain ⟨command, hsecond⟩ := k p
  exact ⟨command, by rw [hsecond, hfirst]⟩

theorem rechooseViews_commandsOnly (sc : Scene) (d : Display) : CommandsOnly d (rechooseViews sc d) := fun p => by
  by_cases hview : (rechooseViews sc d).seq.views.get p = d.seq.views.get p
  · exact ⟨_, (rechooseViews_same hview).record⟩
  · cases hrow : sc.panel p with
    | none => exact absurd (rechooseViews_absent sc hrow).view hview
    | some row => exact ⟨_, (rechooseViews_entered hrow hview).record⟩

theorem slotChange_commandsOnly (i : Fin 8) (newText : Bool) (sc : Scene) (d : Display) :
    CommandsOnly d (slotChange i newText sc d) := by
  rw [slotChange_eq]
  exact (CommandsOnly.of_eq ((changeMessages_changes _ sc d).panels_eq (by decide))).trans (rechooseViews_commandsOnly sc _)

theorem tickSlot_commandsOnly (i : Fin 8) (s : State) : CommandsOnly s.disp (tickSlot i s).disp := by
  unfold tickSlot
  split
  · split
    · exact slotChange_commandsOnly _ _ _ _
    · exact .of_eq rfl
  · exact .of_eq rfl
  · exact .of_eq rfl
  · exact .of_eq rfl

theorem tickSilence_commandsOnly (s : State) : CommandsOnly s.disp (tickSilence s).disp := by
  unfold tickSilence
  split
  · exact rechooseViews_commandsOnly _ _
  · exact .of_eq rfl

theorem tickSlots_commandsOnly (s : State) : CommandsOnly s.disp (tickSlots s).disp :=
  List.foldlRecOn (List.finRange 8) _ (motive := fun u : State => CommandsOnly s.disp u.disp) (.of_eq rfl)
    fun u hu i _ => hu.trans (tickSlot_commandsOnly i u)

theorem timedSecond_commandsOnly (s : State) : CommandsOnly s.disp (timedSecond s).disp := by
  have hpanels : (growAges (tickClock s)).disp.panels = s.disp.panels := aged_changes s .panels (by decide)
  unfold timedSecond
  exact (CommandsOnly.of_eq hpanels).trans (tickSlots_commandsOnly _)

theorem beforeSwap_commandsOnly (s : State) : CommandsOnly s.disp (beforeSwap s).disp := by
  have htimed := timedSecond_commandsOnly s
  rw [beforeSwap_eq]
  refine CommandsOnly.trans ?_ (tickSilence_commandsOnly _)
  unfold countedSecond
  generalize timedSecond s = u at htimed
  have hdwelled : (u.onDisplay tickDwells).disp.panels = u.disp.panels := (tickDwells_changes _ _).panels_eq (by decide)
  refine (htimed.trans (.of_eq hdwelled)).trans (.of_eq ?_)
  exact (tickLanguage_changes _ _ _).panels_eq (by decide)

/-- A probe timer's second, with its mark (R152). -/
theorem tickProbe_eq (r : PanelBusRecord) : r.tickProbe =
    { r with
      probeTimer := if r.state = .fault then r.probeTimer.bind fun n => if n ≤ 1 then none else some (n - 1)
        else r.probeTimer
      probeDue := r.probeDue || (r.state == .fault && r.probeTimer.any fun n => decide (n ≤ 1)) } := by
  unfold PanelBusRecord.tickProbe
  by_cases hfault : r.state = .fault
  · obtain ⟨state, failures, gap, timer, due, command, palette⟩ := r
    dsimp only at hfault
    subst hfault
    cases timer with
    | none => simp
    | some n =>
      by_cases hlast : n ≤ 1 <;> simp [hlast]
  · have hstate : (r.state == .fault) = false := beq_false_of_ne hfault
    rw [if_neg hfault, if_neg hfault, hstate, Bool.false_and, Bool.or_false]

theorem tickProbes_get (d : Display) (p : Fin 16) : (tickProbes d).panels.get p = (d.panels.get p).tickProbe :=
  Vec.get_mapIdx _ _ _

/-! ### The refresh cursors (R127) -/

section
variable {cycle : Nat} {sc : Scene} {d : Display} {p : Fin 16}

theorem refreshPanel_rests (h : sc.panel p = none ∨ (d.panels.get p).state ≠ .online) : refreshPanel cycle sc d p = d := by
  unfold refreshPanel
  cases hrow : sc.panel p with
  | none => rfl
  | some row => exact if_neg (h.resolve_left (by rw [hrow]; nofun))

/-- An ONLINE panel refreshed (R127). -/
theorem refreshPanel_online {row : PanelRow} (hrow : sc.panel p = some row) (honline : (d.panels.get p).state = .online) :
    refreshPanel cycle sc d p = { d with lines :=
      ⟨d.lines.dirty.update p (addLines ((refreshLines row.height (d.lines.cursor.get p) (ceilDiv row.height cycle)).filter
          fun y => decide (y < row.height))),
        d.lines.cursor.set p ((d.lines.cursor.get p + ceilDiv row.height cycle) % row.height)⟩ } := by
  unfold refreshPanel
  rw [hrow]
  exact if_pos honline

theorem refreshPanel_cases (sc : Scene) (d : Display) (p : Fin 16) :
    (sc.panel p = none ∨ (d.panels.get p).state ≠ .online) ∨
      ∃ row, sc.panel p = some row ∧ (d.panels.get p).state = .online := by
  cases hrow : sc.panel p with
  | none => exact .inl (.inl rfl)
  | some row =>
    by_cases honline : (d.panels.get p).state = .online
    · exact .inr ⟨row, rfl, honline⟩
    · exact .inl (.inr honline)

theorem refreshPanel_other {q : Fin 16} (hq : q ≠ p) : SamePanel q d (refreshPanel cycle sc d p) := by
  rcases refreshPanel_cases sc d p with hrests | ⟨row, hrow, honline⟩
  · rw [refreshPanel_rests hrests]
    exact SamePanel.refl q d
  · rw [refreshPanel_online hrow honline]
    exact ⟨rfl, rfl, (Vec.get_update _ _ _ _).trans (if_neg hq.symm), (Vec.get_set _ _ _ _).trans (if_neg hq.symm), rfl,
      fun _ _ => rfl⟩

theorem refreshPanel_congr {e : Display} (h : SamePanel p d e) :
    SamePanel p (refreshPanel cycle sc d p) (refreshPanel cycle sc e p) := by
  rcases refreshPanel_cases sc d p with hrests | ⟨row, hrow, honline⟩
  · rw [refreshPanel_rests hrests, refreshPanel_rests (by rw [h.record]; exact hrests)]
    exact h
  · rw [refreshPanel_online hrow honline, refreshPanel_online hrow (by rw [h.record]; exact honline)]
    refine ⟨h.view, h.synthetic, ?_, ?_, h.record, h.runtime⟩
    · refine (Vec.get_update_self _ _ _).trans (Eq.trans ?_ (Vec.get_update_self _ _ _).symm)
      rw [h.dirty, h.cursor]
    · refine (Vec.get_set_self _ _ _).trans (Eq.trans ?_ (Vec.get_set_self _ _ _).symm)
      rw [h.cursor]

/-- A refresh does at each panel what it does there alone. -/
theorem refreshPanels_panel (hcycle : cycle ≠ 0) (sc : Scene) (d : Display) (p : Fin 16) :
    SamePanel p (refreshPanel cycle sc d p) (refreshPanels cycle sc d) := by
  unfold refreshPanels
  rw [if_neg hcycle]
  refine samePanel_foldl (fun d p => ?_) (fun d p q => refreshPanel_other) (fun d e p _ => refreshPanel_congr) d p
  rcases refreshPanel_cases sc d p with hrests | ⟨row, hrow, honline⟩
  · rw [refreshPanel_rests hrests]
  · rw [refreshPanel_online hrow honline]

theorem refreshPanels_rests (h : sc.panel p = none ∨ (d.panels.get p).state ≠ .online ∨ cycle = 0) :
    (refreshPanels cycle sc d).lines.cursor.get p = d.lines.cursor.get p := by
  by_cases hcycle : cycle = 0
  · unfold refreshPanels
    rw [if_pos hcycle]
  · have hrests : sc.panel p = none ∨ (d.panels.get p).state ≠ .online :=
      h.imp_right fun h => h.resolve_right hcycle
    have hsame := (refreshPanels_panel hcycle sc d p).cursor
    rwa [refreshPanel_rests hrests] at hsame

theorem refreshPanels_moves {row : PanelRow} (hrow : sc.panel p = some row) (honline : (d.panels.get p).state = .online)
    (hcycle : cycle ≠ 0) :
    (refreshPanels cycle sc d).lines.cursor.get p = (d.lines.cursor.get p + ceilDiv row.height cycle) % row.height ∧
      ∀ y ∈ refreshLines row.height (d.lines.cursor.get p) (ceilDiv row.height cycle),
        y ∈ (refreshPanels cycle sc d).lines.dirty.get p := by
  have hsame := refreshPanels_panel hcycle sc d p
  refine ⟨?_, fun y hy => ?_⟩
  · rw [hsame.cursor, refreshPanel_online hrow honline]
    exact Vec.get_set_self _ _ _
  · obtain ⟨i, hi, heq⟩ := List.mem_map.mp hy
    have hheight : 0 < row.height := by
      by_contra hzero
      have hnone : ceilDiv row.height cycle = 0 := by
        unfold ceilDiv
        rw [Nat.eq_zero_of_not_pos hzero]
        exact Nat.div_eq_of_lt (by omega)
      rw [hnone] at hi
      cases hi
    rw [hsame.dirty, mem_refreshPanel]
    exact .inr ⟨rfl, honline, row, hrow, heq ▸ Nat.mod_lt _ hheight, hy⟩

end

/-! ### The panels through a second -/

theorem beforeSwap_redrawn (s : State) : Redrawn s (beforeSwap s) := by
  have htimed : Redrawn s (timedSecond s) :=
    ((tickClock_redrawn s).trans (changeBoards_redrawn _ _)).trans (Redrawn.foldl (fun s i => tickSlot_redrawn i s) _)
  rw [beforeSwap_eq]
  refine Redrawn.trans ?_ (tickSilence_redrawn _)
  exact (htimed.trans (Redrawn.onDisplay (fun sc d => tickDwells_drawn sc d) _)).trans
    (Redrawn.onDisplay (fun sc d => tickLanguage_drawn sc _ d) _)

section
variable {s : State} (hswap : s.tables.swapPending = false) (p : Fin 16)
include hswap

theorem takeSecond_record : ∃ command, (takeSecond s).disp.panels.get p = { s.disp.panels.get p with
    viewCommand := command
    probeTimer := if (s.disp.panels.get p).state = .fault then
        (s.disp.panels.get p).probeTimer.bind fun n => if n ≤ 1 then none else some (n - 1)
      else (s.disp.panels.get p).probeTimer
    probeDue := (s.disp.panels.get p).probeDue ||
      ((s.disp.panels.get p).state == .fault && (s.disp.panels.get p).probeTimer.any fun n => decide (n ≤ 1)) } := by
  obtain ⟨command, hbefore⟩ := beforeSwap_commandsOnly s p
  refine ⟨command, ?_⟩
  rw [takeSecond_unswapped hswap]
  refine (tickProbes_get _ p).trans ?_
  have hrefreshed : (refreshPanels s.settings.refreshCycle (beforeSwap s).scene (beforeSwap s).disp).panels =
      (beforeSwap s).disp.panels := (refreshPanels_changes _ _ _).panels_eq (by decide)
  show ((refreshPanels s.settings.refreshCycle (beforeSwap s).scene (beforeSwap s).disp).panels.get p).tickProbe = _
  rw [hrefreshed, hbefore, tickProbe_eq]

theorem takeSecond_lines : (takeSecond s).disp.lines =
    (refreshPanels s.settings.refreshCycle (beforeSwap s).scene (beforeSwap s).disp).lines := by
  rw [takeSecond_unswapped hswap]
  rfl

theorem takeSecond_cursor_rests
    (h : s.scene.panel p = none ∨ (s.disp.panels.get p).state ≠ .online ∨ s.settings.refreshCycle = 0) :
    (takeSecond s).disp.lines.cursor.get p = s.disp.lines.cursor.get p := by
  have hredrawn := beforeSwap_redrawn s
  obtain ⟨hstate, -⟩ := hredrawn.drawn.health p
  rw [takeSecond_lines hswap, refreshPanels_rests (by rw [panel_of_bank hredrawn.bank, hstate]; exact h),
    hredrawn.drawn.cursor]

theorem takeSecond_cursor_moves {row : PanelRow} (hrow : s.scene.panel p = some row)
    (honline : (s.disp.panels.get p).state = .online) (hcycle : s.settings.refreshCycle ≠ 0) :
    (takeSecond s).disp.lines.cursor.get p =
        (s.disp.lines.cursor.get p + ceilDiv row.height s.settings.refreshCycle) % row.height ∧
      Dirty (takeSecond s) p
        (refreshLines row.height (s.disp.lines.cursor.get p) (ceilDiv row.height s.settings.refreshCycle)) := by
  have hredrawn := beforeSwap_redrawn s
  obtain ⟨hstate, -⟩ := hredrawn.drawn.health p
  have hmoves := refreshPanels_moves (cycle := s.settings.refreshCycle) (sc := (beforeSwap s).scene)
    (d := (beforeSwap s).disp) (p := p) (row := row) (by rw [panel_of_bank hredrawn.bank]; exact hrow)
    (by rw [hstate]; exact honline) hcycle
  rw [hredrawn.drawn.cursor] at hmoves
  unfold Dirty
  rw [takeSecond_lines hswap]
  exact hmoves

end

end Sys2Proof.Machine

/-! The views through a second: a panel's view only ever moves on, out of EMERGENCY as durations end and into FALLBACK as
SILENT is set (R119 to R121). -/

namespace Sys2Proof.Machine

open Claims

/-! ### How views move within a second -/

/-- The order in which a second can move a panel's view: out of EMERGENCY, and from NORMAL to FALLBACK. -/
def PanelView.rank : PanelView → Nat
  | .emergency => 0
  | .normal => 1
  | .fallback | .test | .blank => 2

/-- No view comes after BLANK. -/
theorem PanelView.rank_le (v : PanelView) : v.rank ≤ PanelView.rank .blank := by cases v <;> decide

/-- Where slots only empty and SILENT is only set, the view chosen stays or moves on (R120). -/
theorem chosenView_rises {sc sc' : Scene} {p : Fin 16} (row : PanelRow) (hmode : sc'.mode = sc.mode)
    (hslots : Emergency sc' p → Emergency sc p) (hsilent : sc.silent = true → sc'.silent = true) :
    chosenView sc' p row = chosenView sc p row ∨ (chosenView sc p row).rank < (chosenView sc' p row).rank := by
  rcases chosenView_is sc p row with ⟨-, -, hv⟩ | ⟨hnot, hv⟩ <;>
    rcases chosenView_is sc' p row with ⟨hemergency', hpolicy', hv'⟩ | ⟨-, hv'⟩
  · exact .inl (hv'.trans hv.symm)
  · refine .inr ?_
    rw [hv]
    rcases hv' with ⟨-, hv'⟩ | ⟨-, hv'⟩ | ⟨-, -, -, hv'⟩ | ⟨-, -, hv'⟩ <;> rw [hv'] <;> decide
  · exact absurd ⟨hslots hemergency', hpolicy'⟩ hnot
  · rw [hmode] at hv'
    cases hm : sc.mode with
    | run =>
      simp only [hm, true_and, reduceCtorEq, false_and, false_or] at hv hv'
      rcases hv with ⟨hs, hf, hv⟩ | ⟨-, hv⟩
      · rcases hv' with ⟨-, -, hv'⟩ | ⟨hnot', -⟩
        · exact .inl (hv'.trans hv.symm)
        · exact absurd ⟨hsilent hs, hf⟩ hnot'
      · rcases hv' with ⟨-, -, hv'⟩ | ⟨-, hv'⟩
        · exact .inr (by rw [hv, hv']; decide)
        · exact .inl (hv'.trans hv.symm)
    | night | test =>
      simp only [hm, true_and, reduceCtorEq, false_and, or_false, false_or] at hv hv'
      exact .inl (hv'.trans hv.symm)

/-- From one display to another a panel keeps its view and its view command, or has moved on to another view, every line
marked and its command set as R121 has it. -/
def ViewMoved (p : Fin 16) (row : PanelRow) (d e : Display) : Prop :=
  (e.seq.views.get p = d.seq.views.get p ∧ (e.panels.get p).viewCommand = (d.panels.get p).viewCommand) ∨
    ∃ v w, d.seq.views.get p = some v ∧ e.seq.views.get p = some w ∧ v.rank < w.rank ∧
      (∀ y < row.height, y ∈ e.lines.dirty.get p) ∧
      (e.panels.get p).viewCommand = if w = .blank then some .blank else (d.panels.get p).viewCommand

section
variable {p : Fin 16} {row : PanelRow} {d e f : Display}

theorem ViewMoved.of_eq (hviews : e.seq.views = d.seq.views) (hpanels : e.panels = d.panels) : ViewMoved p row d e :=
  .inl ⟨by rw [hviews], by rw [hpanels]⟩

theorem ViewMoved.trans (h : ViewMoved p row d e) (k : ViewMoved p row e f)
    (hmarks : ∀ y, y ∈ e.lines.dirty.get p → y ∈ f.lines.dirty.get p) : ViewMoved p row d f := by
  rcases h with ⟨hview, hcommand⟩ | ⟨v, w, hv, hw, hrises, hdirty, hcommand⟩
  · unfold ViewMoved at k ⊢
    rwa [hview, hcommand] at k
  · rcases k with ⟨hview', hcommand'⟩ | ⟨w', x, hw', hx, hrises', hdirty', hcommand'⟩
    · exact .inr ⟨v, w, hv, hview'.trans hw, hrises, fun y hy => hmarks y (hdirty y hy), hcommand'.trans hcommand⟩
    · obtain rfl := Option.some.inj (hw'.symm.trans hw)
      have hopen : w' ≠ .blank := by
        rintro rfl
        exact absurd x.rank_le (Nat.not_le_of_lt hrises')
      refine .inr ⟨v, x, hv, hx, hrises.trans hrises', hdirty', ?_⟩
      rw [hcommand', hcommand, if_neg hopen]

/-- Views chosen again for a panel whose view stays or moves on. -/
theorem rechooseViews_moved {sc : Scene} {v : PanelView} (hrow : sc.panel p = some row) (hview : d.seq.views.get p = some v)
    (hrises : chosenView sc p row = v ∨ v.rank < (chosenView sc p row).rank) : ViewMoved p row d (rechooseViews sc d) := by
  rcases hrises with hsame | hrises
  · have hstays := rechooseViews_stays sc hrow (d := d) (by rw [hview, hsame])
    exact .inl ⟨hstays.view, congrArg PanelBusRecord.viewCommand hstays.record⟩
  · have hne : some v ≠ some (chosenView sc p row) := fun heq => by
      rw [← Option.some.inj heq] at hrises
      exact Nat.lt_irrefl _ hrises
    have hopen : v ≠ .blank := by
      rintro rfl
      exact absurd (chosenView sc p row).rank_le (Nat.not_le_of_lt hrises)
    obtain ⟨hshown, -, hdirty, -, hrecord⟩ := rechooseViews_changed sc hrow (by rw [hview]; exact hne)
    refine .inr ⟨v, _, hview, hshown, hrises, fun y hy => ?_, ?_⟩
    · rw [hdirty, mem_addLines]
      simp [hy]
    · rw [hrecord, hview]
      unfold commandAfter
      rw [if_neg fun heq => hopen (Option.some.inj heq)]

end

/-! ### The stages that choose the views again -/

section
variable {s : State} (hok : ViewsOk s) {p : Fin 16} {row : PanelRow} (hrow : s.scene.panel p = some row)
include hok hrow

theorem ViewsOk.view : s.disp.seq.views.get p = some (chosenView s.scene p row) := by
  rw [(hok p).1, hrow]
  rfl

theorem tickSlot_moved (i : Fin 8) : ViewMoved p row s.disp (tickSlot i s).disp := by
  have rests : ViewMoved p row s.disp s.disp := .of_eq rfl rfl
  unfold tickSlot
  split
  · split
    · have judged := changeMessages_changes (fun pl => pl.rejudge i false) (s.setSlot i .free false).scene s.disp
      have hviews := judged.views_eq (by decide)
      have hpanels := judged.panels_eq (by decide)
      refine ViewMoved.trans (.of_eq hviews hpanels)
        (rechooseViews_moved (v := chosenView s.scene p row) hrow (by rw [hviews]; exact hok.view hrow) ?_)
        fun y hy => (rechooseViews_drawn _ _).mem hy
      refine chosenView_rises row rfl ?_ id
      rintro ⟨j, r, hr, hemergency, hmask⟩
      refine ⟨j, r, ?_, hemergency, hmask⟩
      have hr' : ((s.slots.set i .free).get j).record? = some r := hr
      rw [Vec.get_set] at hr'
      split at hr'
      · cases hr'
      · exact hr'
    · exact rests
  · exact rests
  · exact rests
  · exact rests

theorem tickSilence_moved : ViewMoved p row s.disp (tickSilence s).disp := by
  unfold tickSilence
  split
  · exact rechooseViews_moved (v := chosenView s.scene p row) hrow (hok.view hrow)
      (chosenView_rises row rfl id fun _ => rfl)
  · exact .of_eq rfl rfl

end

/-- What a stage of a second leaves: the tables, views as chosen, and a panel whose view has stayed or moved on. -/
def ViewStands (s : State) (p : Fin 16) (row : PanelRow) (u : State) : Prop :=
  u.tables = s.tables ∧ ViewsOk u ∧ ViewMoved p row s.disp u.disp

section
variable {s : State} {p : Fin 16} {row : PanelRow}

theorem ViewStands.present {u : State} (h : ViewStands s p row u) (hrow : s.scene.panel p = some row) :
    u.scene.panel p = some row :=
  (congrFun (panel_of_bank (congrArg TableStore.activeBank h.1)) p).trans hrow

theorem ViewStands.moved {u : State} (h : ViewStands s p row u) : ViewMoved p row s.disp u.disp := h.2.2

theorem ViewStands.later {u t : State} (h : ViewStands s p row u) (htables : t.tables = u.tables) (hok : ViewsOk t)
    (hmoved : ViewMoved p row u.disp t.disp) (hmarks : ∀ y, y ∈ u.disp.lines.dirty.get p → y ∈ t.disp.lines.dirty.get p) :
    ViewStands s p row t := ⟨htables.trans h.1, hok, h.2.2.trans hmoved hmarks⟩

theorem viewStands_laterKept (hswap : s.tables.swapPending = false) (hrow : s.scene.panel p = some row) :
    LaterKept (ViewStands s p row) where
  slot u i h := h.later (tickSlot_changes i u .tables (by decide)) (h.2.1.tickSlot i) (tickSlot_moved h.2.1 (h.present hrow) i)
    fun _ => (tickSlot_redrawn i u).drawn.mem
  dwells u h := h.later rfl h.2.1.tickDwells (.of_eq ((tickDwells_changes _ _).views_eq (by decide))
    ((tickDwells_changes _ _).panels_eq (by decide))) fun _ => (tickDwells_drawn u.scene u.disp).mem
  language u dwell hdwell h := h.later rfl (viewsOk_secondKept.language u dwell hdwell h.2.1)
    (.of_eq ((tickLanguage_changes _ _ _).views_eq (by decide)) ((tickLanguage_changes _ _ _).panels_eq (by decide)))
    fun _ => (tickLanguage_drawn u.scene dwell u.disp).mem
  silence u h := h.later (tickSilence_changes u .tables (by decide)) h.2.1.tickSilence
    (tickSilence_moved h.2.1 (h.present hrow)) fun _ => (tickSilence_redrawn u).drawn.mem
  swap u h := by
    rw [tickSwap_none (h.1.symm ▸ hswap)]
    exact h
  refresh u cycle h := h.later rfl (viewsOk_secondKept.refresh u cycle h.2.1)
    (.of_eq ((refreshPanels_changes _ _ _).views_eq (by decide)) ((refreshPanels_changes _ _ _).panels_eq (by decide)))
    fun _ => dirty_refreshPanels cycle u.scene
  probes u h := by
    refine h.later rfl (viewsOk_secondKept.probes u h.2.1) (.inl ⟨rfl, ?_⟩) fun _ => id
    have hkept : (u.disp.panels.get p).tickProbe.viewCommand = (u.disp.panels.get p).viewCommand := by rw [tickProbe_eq]
    exact (congrArg PanelBusRecord.viewCommand (tickProbes_get u.disp p)).trans hkept

theorem takeSecond_viewStands (hswap : s.tables.swapPending = false) (hok : ViewsOk s) (hrow : s.scene.panel p = some row) :
    ViewStands s p row (takeSecond s) := by
  have haged := aged_changes s
  refine (viewStands_laterKept hswap hrow).takeSecond ⟨haged .tables (by decide), ?_, .of_eq (haged .views (by decide))
    (haged .panels (by decide))⟩
  exact viewsOk_secondKept.ages _ (viewsOk_secondKept.clock _ hok)

end

/-- Views as they are kept are views as R120 has them. -/
theorem ViewsOk.viewsChosen {s : State} (h : ViewsOk s) : ViewsChosen s := fun p row hrow =>
  ⟨_, h.view hrow, chosenView_is s.scene p row⟩

/-- A panel's view and its view command through a second (R120, R121). -/
theorem ViewMoved.command {s t : State} {p : Fin 16} {row : PanelRow} (h : ViewMoved p row s.disp t.disp) :
    if t.disp.seq.views.get p = s.disp.seq.views.get p then
      (t.disp.panels.get p).viewCommand = (s.disp.panels.get p).viewCommand
    else Dirty t p (List.range row.height) ∧
      (t.disp.panels.get p).viewCommand =
        if t.disp.seq.views.get p = some .blank then some .blank
        else if s.disp.seq.views.get p = some .blank then some .unblank
        else (s.disp.panels.get p).viewCommand := by
  rcases h with ⟨hview, hcommand⟩ | ⟨v, w, hv, hw, hrises, hdirty, hcommand⟩
  · rw [if_pos hview]
    exact hcommand
  · have hne : w ≠ v := by
      rintro rfl
      exact Nat.lt_irrefl _ hrises
    have hopen : v ≠ .blank := by
      rintro rfl
      exact absurd w.rank_le (Nat.not_le_of_lt hrises)
    rw [hv, hw, if_neg fun heq => hne (Option.some.inj heq), hcommand]
    refine ⟨fun y hy => hdirty y (List.mem_range.mp hy), ?_⟩
    simp only [Option.some.injEq, if_neg hopen]

theorem takeSecond_moved {s : State} (hswap : s.tables.swapPending = false) (hok : ViewsOk s) {p : Fin 16} {row : PanelRow}
    (hrow : s.scene.panel p = some row) : ViewMoved p row s.disp (takeSecond s).disp :=
  (takeSecond_viewStands hswap hok hrow).moved

end Sys2Proof.Machine

/-! The dwells through a second: what each counter finds, does, and what the rest of the second leaves of it (R91 to R93,
R96, R98, R102). -/

namespace Sys2Proof.Machine

open Claims

/-! ### Before the dwells: the boards and the durations -/

/-- A runtime that neither a board notice nor a clock change writes: a tile's or a message's. -/
def ZoneRuntime.dwellsAlone : ZoneRuntime → Bool
  | .tile _ _ | .message _ => true
  | .page _ _ _ | .clock _ => false

section
variable {z : Nat} {rt : ZoneRuntime} (hrt : rt.dwellsAlone = true)
include hrt

theorem takeNotice_keepsAlone (n : Notice) (sc : Scene) {d : Display} (hd : d.seq.runtimes.find z = some rt) :
    (takeNotice n sc d).seq.runtimes.find z = some rt :=
  List.foldlRecOn sc.zones (noticeZone sc n) (motive := fun e => e.seq.runtimes.find z = some rt) hd fun e he a _ => by
    have hsame : noticeRuntime sc n a.2.2.2 (some rt) = some rt := by
      unfold noticeRuntime
      cases rt with
      | page | clock => cases hrt
      | tile | message =>
        split
        · split <;> rfl
        · rfl
    rw [noticeZone_find, he, hsame, ite_self]

theorem changeBoards_keepsAlone {s : State} (f : Fin 8 → List Entry → List Entry × Option Notice)
    (hd : s.disp.seq.runtimes.find z = some rt) : (s.changeBoards f).disp.seq.runtimes.find z = some rt := by
  rw [changeBoards_disp, noticesTaken_eq]
  refine List.foldlRecOn _ _ (motive := fun e : Display => e.seq.runtimes.find z = some rt) hd fun e he b _ => ?_
  unfold noticed
  split
  · exact takeNotice_keepsAlone hrt _ _ he
  · exact he

theorem clockZones_keepsAlone (sc : Scene) {d : Display} (hd : d.seq.runtimes.find z = some rt) :
    (clockZones sc d).seq.runtimes.find z = some rt :=
  List.foldlRecOn sc.zones (clockZone sc) (motive := fun e => e.seq.runtimes.find z = some rt) hd fun e he a _ => by
    have hsame : clockRuntime sc a.2.2.2 (some rt) = some rt := by
      unfold clockRuntime
      cases rt with
      | page | clock => cases hrt
      | tile | message => split <;> simp_all
    rw [clockZone_find, he, hsame, ite_self]

/-- The clock's second and the ages' leave the tiles and the messages. -/
theorem aged_keepsAlone {s : State} (hd : s.disp.seq.runtimes.find z = some rt) :
    (growAges (tickClock s)).disp.seq.runtimes.find z = some rt := by
  have hclock : (tickClock s).disp.seq.runtimes.find z = some rt := by
    unfold tickClock
    dsimp only
    split
    · exact hd
    · exact clockZones_keepsAlone hrt _ (changeBoards_keepsAlone (s := { s with clock := secondClock s.clock }) hrt _ hd)
  exact changeBoards_keepsAlone hrt _ hclock

end

/-- No duration ends at the next second. -/
def NoneEnds (s : State) : Prop := ∀ i r n, s.slots.get i = .active r (some n) → 2 ≤ n

theorem tickSlot_rests {i : Fin 8} {s : State} (h : ∀ r n, s.slots.get i = .active r (some n) → 2 ≤ n) :
    (tickSlot i s).disp = s.disp := by
  unfold tickSlot
  split
  next r n hslot =>
    rw [if_neg (Nat.not_le_of_lt (h r n hslot))]
  · rfl
  · rfl
  · rfl

theorem foldl_tickSlot_rests {l : List (Fin 8)} (hnodup : l.Nodup) {s : State}
    (h : ∀ i ∈ l, ∀ r n, s.slots.get i = .active r (some n) → 2 ≤ n) :
    (l.foldl (fun s i => tickSlot i s) s).disp = s.disp := by
  induction l generalizing s with
  | nil => rfl
  | cons i rest ih =>
    obtain ⟨hi, hrest⟩ := List.nodup_cons.mp hnodup
    rw [List.foldl_cons, ih hrest, tickSlot_rests (h i List.mem_cons_self)]
    intro j hj r n hslot
    have hne : i ≠ j := fun heq => hi (heq ▸ hj)
    rw [tickSlot_slots, if_neg hne] at hslot
    exact h j (List.mem_cons_of_mem _ hj) r n hslot

theorem tickSlots_rests {s : State} (h : NoneEnds s) : (tickSlots s).disp = s.disp :=
  foldl_tickSlot_rests (List.nodup_finRange 8) fun i _ => h i

/-- Where no duration ends, the durations' second leaves the display. -/
theorem timedSecond_disp {s : State} (h : NoneEnds s) : (timedSecond s).disp = (growAges (tickClock s)).disp := by
  have hslots : (growAges (tickClock s)).slots = s.slots := aged_changes s .slots (by decide)
  unfold timedSecond
  refine tickSlots_rests ?_
  unfold NoneEnds
  rw [hslots]
  exact h

/-- Where no duration ends, every slot keeps its record. -/
theorem timedSecond_record {s : State} (h : NoneEnds s) (i : Fin 8) :
    ((timedSecond s).slots.get i).record? = (s.slots.get i).record? := by
  have hends := h i
  rw [timedSecond_slots]
  cases hslot : s.slots.get i with
  | active r left =>
    cases left with
    | some n =>
      have hmore : ¬n ≤ 1 := Nat.not_le_of_lt (hends r n hslot)
      unfold Slot.ticked
      dsimp only
      rw [if_neg hmore]
      rfl
    | none => rfl
  | free | locked => rfl

/-! ### The dwells -/

section
variable {sc : Scene} {d : Display}

theorem turnPage_other {w z : Nat} (hw : w ≠ z) : (turnPage w sc d).seq.runtimes.find z = d.seq.runtimes.find z := by
  unfold turnPage
  split
  · split
    · rw [setRuntime_find, if_neg hw, markContent_seq]
    · rfl
  · rfl

theorem stepTile_other {w z : Nat} (hw : w ≠ z) : (stepTile w sc d).seq.runtimes.find z = d.seq.runtimes.find z := by
  unfold stepTile
  split
  · split
    · rw [setRuntime_find, if_neg hw, markContent_seq]
    · rfl
  · rfl

theorem onMessage_other {ref : MsgZone} {z : Nat} (f : MessagePlace → Scene → MessageRuntime → MessageRuntime × Mark)
    (hz : ∀ w : Fin 192, ref = .zone w → w.val ≠ z) :
    (onMessage ref f sc d).seq.runtimes.find z = d.seq.runtimes.find z := by
  cases hpl : messagePlace? sc d.seq.phase ref with
  | none => rw [onMessage_none ref f sc (.inl hpl)]
  | some pl =>
    cases hrt : d.messageRuntime? ref with
    | none => rw [onMessage_none ref f sc (.inr hrt)]
    | some rt =>
      rw [onMessage_some ref f sc hpl hrt]
      cases ref with
      | zone w =>
        refine (setRuntime_find _ _ _ _).trans ((if_neg (hz w rfl)).trans ?_)
        rw [markPlace_seq]
      | synthetic p => exact congrArg (fun seq => seq.runtimes.find z) (markPlace_seq _ _ _)

theorem tickZone_other {w : Fin 192} {z : Nat} (hw : w.val ≠ z) :
    (tickZone w sc d).seq.runtimes.find z = d.seq.runtimes.find z := by
  unfold tickZone
  split
  · split
    · exact turnPage_other hw
    · rw [setRuntime_find, if_neg hw]
  · split
    · exact stepTile_other hw
    · rw [setRuntime_find, if_neg hw]
  · refine onMessage_other _ fun v hv => ?_
    rw [← MsgZone.zone.inj hv]
    exact hw
  · rfl
  · rfl

theorem tickZone_phase (w : Fin 192) (sc : Scene) (d : Display) : (tickZone w sc d).seq.phase = d.seq.phase :=
  (tickZone_changes w sc d).phase_eq (by decide)

/-- A zone's counter takes its second over a display that holds its runtime and the phase as they were. -/
theorem tickDwells_find {z : Fin 192} (hlive : (d.seq.runtimes.find z.val).isSome = true) :
    ∃ e, e.seq.runtimes.find z.val = d.seq.runtimes.find z.val ∧ e.seq.phase = d.seq.phase ∧
      (tickDwells sc d).seq.runtimes.find z.val = (tickZone z sc e).seq.runtimes.find z.val := by
  have others (ws : List (Fin 192)) (hws : z ∉ ws) (d : Display) :
      (ws.foldl (fun d w => tickZone w sc d) d).seq.runtimes.find z.val = d.seq.runtimes.find z.val :=
    List.foldlRecOn ws _ (motive := fun e : Display => e.seq.runtimes.find z.val = d.seq.runtimes.find z.val) rfl
      fun e he w hw => (tickZone_other fun heq => by
        rw [Fin.ext heq] at hw
        exact hws hw).trans he
  have hin : z ∈ (List.finRange 192).filter fun w => (d.seq.runtimes.find w.val).isSome :=
    List.mem_filter.mpr ⟨List.mem_finRange z, hlive⟩
  have hnodup : ((List.finRange 192).filter fun w => (d.seq.runtimes.find w.val).isSome).Nodup :=
    (List.nodup_finRange 192).filter _
  obtain ⟨pre, post, hsplit⟩ := List.append_of_mem hin
  rw [hsplit] at hnodup
  obtain ⟨-, htail, hapart⟩ := List.nodup_append.mp hnodup
  have hpre : z ∉ pre := fun h => hapart z h z List.mem_cons_self rfl
  have hpost : z ∉ post := (List.nodup_cons.mp htail).1
  refine ⟨pre.foldl (fun d w => tickZone w sc d) d, others pre hpre d, ?_, ?_⟩
  · exact List.foldlRecOn pre _ (motive := fun e : Display => e.seq.phase = d.seq.phase) rfl
      fun e he w _ => (tickZone_phase w sc e).trans he
  · unfold tickDwells
    dsimp only
    rw [hsplit, List.foldl_append, List.foldl_cons]
    refine (List.foldlRecOn (List.finRange 16) _ (motive := fun e : Display => e.seq.runtimes.find z.val =
      (post.foldl (fun d w => tickZone w sc d) _).seq.runtimes.find z.val) rfl fun e he p _ =>
        (onMessage_other (ref := .synthetic p) _ nofun).trans he).trans ?_
    exact others post hpost _

theorem tickZone_synthetic (w : Fin 192) (sc : Scene) (d : Display) : (tickZone w sc d).seq.synthetic = d.seq.synthetic := by
  unfold tickZone
  split
  · split
    · exact (turnPage_changes w.val sc d).synthetic_eq (by decide)
    · rfl
  · split
    · exact (stepTile_changes w.val sc d).synthetic_eq (by decide)
    · rfl
  · cases hpl : messagePlace? sc d.seq.phase (.zone w) with
    | none => rw [onMessage_none _ _ sc (.inl hpl)]
    | some pl =>
      cases hrt : d.messageRuntime? (.zone w) with
      | none => rw [onMessage_none _ _ sc (.inr hrt)]
      | some rt =>
        rw [onMessage_some _ _ sc hpl hrt]
        show (d.markPlace pl _).seq.synthetic = d.seq.synthetic
        rw [markPlace_seq]
  · rfl
  · rfl

theorem messageAfter_some {f : MessagePlace → Scene → MessageRuntime → MessageRuntime × Mark} {phase : Phase}
    {ref : MsgZone} {pl : MessagePlace} (hpl : messagePlace? sc phase ref = some pl) (rt : MessageRuntime) :
    messageAfter f sc phase ref (some rt) = some (f pl sc rt).1 := by
  unfold messageAfter
  rw [hpl]
  rfl

theorem onMessage_runtime {f : MessagePlace → Scene → MessageRuntime → MessageRuntime × Mark} {ref : MsgZone}
    {pl : MessagePlace} {rt : MessageRuntime} (hpl : messagePlace? sc d.seq.phase ref = some pl)
    (hrt : d.messageRuntime? ref = some rt) : (onMessage ref f sc d).messageRuntime? ref = some (f pl sc rt).1 := by
  refine ((onMessage_local f sc).reads d ref ref trivial).trans ((if_pos rfl).trans ?_)
  rw [hrt]
  exact messageAfter_some hpl rt

theorem messageRuntime?_zone_iff {z : Fin 192} {rt : MessageRuntime} :
    d.messageRuntime? (.zone z) = some rt ↔ d.seq.runtimes.find z.val = some (.message rt) := by
  unfold Display.messageRuntime?
  dsimp only
  cases d.seq.runtimes.find z.val with
  | none => exact ⟨nofun, nofun⟩
  | some zrt =>
    cases zrt with
    | message rt' => exact ⟨fun h => congrArg (fun rt => some (ZoneRuntime.message rt)) (Option.some.inj h),
        fun h => congrArg some (ZoneRuntime.message.inj (Option.some.inj h))⟩
    | page | tile | clock => exact ⟨nofun, nofun⟩

/-- Every message place's dwell takes its second (R91, R96). -/
theorem tickDwells_message {ref : MsgZone} {pl : MessagePlace} {rt : MessageRuntime}
    (hpl : messagePlace? sc d.seq.phase ref = some pl) (hrt : d.messageRuntime? ref = some rt) :
    (tickDwells sc d).messageRuntime? ref = some (pl.tick sc rt).1 := by
  cases ref with
  | zone z =>
    have hfind := messageRuntime?_zone_iff.mp hrt
    obtain ⟨e, hstill, hphase, hafter⟩ := tickDwells_find (sc := sc) (d := d) (z := z) (by rw [hfind]; rfl)
    have hticked : tickZone z sc e = onMessage (.zone z) MessagePlace.tick sc e := by
      unfold tickZone
      rw [hstill, hfind]
    have hmoved := onMessage_runtime (sc := sc) (d := e) (f := MessagePlace.tick) (by rw [hphase]; exact hpl)
      (messageRuntime?_zone_iff.mpr (hstill.trans hfind))
    rw [← hticked] at hmoved
    exact messageRuntime?_zone_iff.mpr (hafter.trans (messageRuntime?_zone_iff.mp hmoved))
  | synthetic p =>
    unfold tickDwells
    dsimp only
    generalize hzoned : ((List.finRange 192).filter fun z => (d.seq.runtimes.find z.val).isSome).foldl
      (fun d z => tickZone z sc d) d = e
    have hsynthetic : e.seq.synthetic = d.seq.synthetic := by
      rw [← hzoned]
      exact List.foldlRecOn _ _ (motive := fun e : Display => e.seq.synthetic = d.seq.synthetic) rfl
        fun e he w _ => (tickZone_synthetic w sc e).trans he
    have hphase : e.seq.phase = d.seq.phase := by
      rw [← hzoned]
      exact List.foldlRecOn _ _ (motive := fun e : Display => e.seq.phase = d.seq.phase) rfl
        fun e he w _ => (tickZone_phase w sc e).trans he
    have hnodup : (((List.finRange 16).map MsgZone.synthetic).map id).Nodup := by
      rw [List.map_id]
      exact (List.nodup_finRange 16).map fun _ _ => MsgZone.synthetic.inj
    have hread := (onMessage_local MessagePlace.tick sc).foldl_reads (fun _ _ => trivial) hnodup
      (List.mem_map_of_mem (List.mem_finRange p)) e
    rw [List.foldl_map] at hread
    refine hread.trans ?_
    have hrt' : e.messageRuntime? (.synthetic p) = some rt :=
      (congrArg (fun v : Vec (Option MessageRuntime) 16 => v.get p) hsynthetic).trans hrt
    rw [hphase]
    exact (congrArg (messageAfter _ sc d.seq.phase _) hrt').trans (messageAfter_some hpl rt)

/-- A page's counter takes its second (R92). -/
theorem tickDwells_page {z : Fin 192} {p : Fin 16} {row : PanelRow} {zone : Zone} {board : Fin 8}
    {format first rows gap pages dwell index left : Nat} {snapshot : List (Option Nat)}
    (hz : sc.zone z = some (p, row, zone)) (hkind : zone.kind = .rows board format first rows gap pages dwell)
    (hrt : d.seq.runtimes.find z.val = some (.page index snapshot left)) :
    (tickDwells sc d).seq.runtimes.find z.val = some (if left ≤ 1 then
      .page ((index + 1) % pageCount (sc.boards.get board).length first rows pages) (pageSnapshot (sc.boards.get board) first rows
        ((index + 1) % pageCount (sc.boards.get board).length first rows pages)) dwell
      else .page index snapshot (left - 1)) := by
  obtain ⟨e, hstill, -, hafter⟩ := tickDwells_find (sc := sc) (d := d) (z := z) (by rw [hrt]; rfl)
  rw [hrt] at hstill
  rw [hafter]
  unfold tickZone
  rw [hstill]
  dsimp only
  split
  · rw [turnPage_of hz hkind hstill, setRuntime_find, if_pos rfl]
  · rw [setRuntime_find, if_pos rfl]

/-- A tile's counter takes its second (R102). -/
theorem tickDwells_tile {z : Fin 192} {p : Fin 16} {row : PanelRow} {zone : Zone} {first last dwell current left : Nat}
    (hz : sc.zone z = some (p, row, zone)) (hkind : zone.kind = .tile first last dwell)
    (hrt : d.seq.runtimes.find z.val = some (.tile current left)) :
    (tickDwells sc d).seq.runtimes.find z.val = some (if left ≤ 1 then
      .tile (if current = last then first else current + 1) dwell else .tile current (left - 1)) := by
  obtain ⟨e, hstill, -, hafter⟩ := tickDwells_find (sc := sc) (d := d) (z := z) (by rw [hrt]; rfl)
  rw [hrt] at hstill
  rw [hafter]
  unfold tickZone
  rw [hstill]
  dsimp only
  split
  · rw [stepTile_of hz hkind hstill, setRuntime_find, if_pos rfl]
  · rw [setRuntime_find, if_pos rfl]

end

/-! ### A message's tick reads of the slots their records alone -/

theorem topGroup_congr {slots slots' : Vec Slot 8} (h : ∀ i, (slots'.get i).record? = (slots.get i).record?) (p : Fin 16)
    (floor : Priority) : topGroup slots' p floor = topGroup slots p floor := by
  unfold topGroup eligibleSlots
  simp only [h]

section
variable {sc sc' : Scene} (hbank : sc'.bank = sc.bank) (hslots : ∀ i, (sc'.slots.get i).record? = (sc.slots.get i).record?)
  (pl : MessagePlace) (rt : MessageRuntime)
include hbank hslots

theorem shownWidth_congr (showing : Showing) : pl.shownWidth sc' showing = pl.shownWidth sc showing := by
  have hfont : pl.shownFont sc' showing = pl.shownFont sc showing := by
    cases showing with
    | slot n => simp only [MessagePlace.shownFont, hslots]
    | idle | empty => rfl
  have hcodes : pl.shownCodes sc' showing = pl.shownCodes sc showing := by
    cases showing with
    | slot n => simp only [MessagePlace.shownCodes, hslots, hbank]
    | idle => simp only [MessagePlace.shownCodes, hbank]
    | empty => rfl
  unfold MessagePlace.shownWidth
  rw [hfont, hcodes, hbank]

theorem begin_congr : pl.begin sc' rt = pl.begin sc rt := by
  unfold MessagePlace.begin
  simp only [shownWidth_congr hbank hslots]

theorem moveOn_congr : pl.moveOn sc' rt = pl.moveOn sc rt := by
  unfold MessagePlace.moveOn MessagePlace.leaveSlot MessagePlace.showSlot MessagePlace.showNone MessagePlace.group
  simp only [begin_congr hbank hslots, topGroup_congr hslots]

theorem tick_congr : pl.tick sc' rt = pl.tick sc rt := by
  unfold MessagePlace.tick
  simp only [moveOn_congr hbank hslots]

end

/-! ### After the dwells: SILENT alone chooses views again -/

/-- Where SILENT alone is set, a view chosen stays, or goes from NORMAL to FALLBACK (R119, R120). -/
theorem chosenView_silenced {sc sc' : Scene} {p : Fin 16} (row : PanelRow) (hslots : sc'.slots = sc.slots)
    (hmode : sc'.mode = sc.mode) (hsilent : sc.silent = true → sc'.silent = true) :
    chosenView sc' p row = chosenView sc p row ∨
      (chosenView sc p row = .normal ∧ chosenView sc' p row = .fallback) := by
  have hemergency : emergencyFor sc' p = emergencyFor sc p := by
    unfold emergencyFor
    rw [hslots]
  unfold chosenView
  rw [hemergency, hmode]
  cases h : sc.silent with
  | true =>
    rw [hsilent h]
    exact .inl rfl
  | false =>
    by_cases hfirst : emergencyFor sc p = true ∧ row.policy = .full
    · exact .inl (by rw [if_pos hfirst, if_pos hfirst])
    · rw [if_neg hfirst, if_neg hfirst]
      cases sc.mode with
      | night | test => exact .inl rfl
      | run => by_cases hf : sc'.silent = true ∧ row.fallback.isSome = true <;> simp [hf]

section
variable {u : State} (hok : ViewsOk u)
include hok

/-- The silence timer's second leaves a panel's view, or moves it from NORMAL to FALLBACK. -/
theorem tickSilence_view (p : Fin 16) : (tickSilence u).disp.seq.views.get p = u.disp.seq.views.get p ∨
    (u.disp.seq.views.get p = some .normal ∧ (tickSilence u).disp.seq.views.get p = some .fallback) := by
  have hshown := (hok.tickSilence p).1
  have hpanel : (tickSilence u).scene.panel p = u.scene.panel p :=
    congrFun (panel_of_bank (tickSilence_redrawn u).bank) p
  rw [hshown, hpanel, (hok p).1]
  cases u.scene.panel p with
  | none => exact .inl rfl
  | some row =>
    have hslots : (tickSilence u).scene.slots = u.scene.slots := tickSilence_changes u .slots (by decide)
    have hmode : (tickSilence u).scene.mode = u.scene.mode := tickSilence_changes u .mode (by decide)
    have hsilent : u.scene.silent = true → (tickSilence u).scene.silent = true := fun h =>
      (tickSilence_silence u).2.mpr (.inl h)
    exact (chosenView_silenced row hslots hmode hsilent).imp (congrArg some) fun ⟨hv, hw⟩ =>
      ⟨congrArg some hv, congrArg some hw⟩

/-- It leaves every zone's runtime. -/
theorem tickSilence_find (hwf : u.tables.activeBank.zones.wf) {z : Nat} {p : Fin 16} {row : PanelRow} {zone : Zone}
    (hz : (z, p, row, zone) ∈ u.scene.zones) :
    (tickSilence u).disp.seq.runtimes.find z = u.disp.seq.runtimes.find z := by
  have hview := tickSilence_view hok p
  unfold tickSilence at hview ⊢
  split
  next hdue =>
    rw [if_pos hdue] at hview
    refine (rechooseViews_runtime (sc := (u.onTrunk (TrunkPort.setSilence (saturate 65535 u.trunk.silence) true)).scene)
      hwf u.disp hz).trans (if_neg ?_)
    rintro ⟨⟨hne, hnormal⟩, -⟩
    rcases hview with hsame | ⟨-, hfallback⟩
    · exact hne hsame
    · exact nomatch hnormal.symm.trans hfallback
  next => rfl

/-- It leaves every message's runtime: a synthetic zone runs in EMERGENCY alone. -/
theorem tickSilence_message (hwf : u.tables.activeBank.zones.wf) {phase : Phase} {ref : MsgZone} {pl : MessagePlace}
    {rt : MessageRuntime} (hpl : messagePlace? u.scene phase ref = some pl) (hrt : u.disp.messageRuntime? ref = some rt) :
    (tickSilence u).disp.messageRuntime? ref = some rt := by
  refine (messageRuntime?_congr (fun w href => ?_) fun p href => ?_).trans hrt
  · subst href
    obtain ⟨zone, _, _, _, _, hz, -⟩ := messagePlace?_zone hpl
    exact tickSilence_find hok hwf hz
  · subst href
    have hemergency : u.disp.seq.views.get p = some .emergency := (hok p).2.mp (Option.isSome_iff_exists.mpr ⟨rt, hrt⟩)
    have hview : (tickSilence u).disp.seq.views.get p = u.disp.seq.views.get p :=
      (tickSilence_view hok p).resolve_right fun h => nomatch h.1.symm.trans hemergency
    unfold tickSilence at hview ⊢
    split
    next hdue =>
      rw [if_pos hdue] at hview
      exact (rechooseViews_same hview).synthetic
    next => rfl

end

end Sys2Proof.Machine

/-! O24: the counts that follow a second (R91, R104, R109, R119, R127, R152, R173). -/

namespace Sys2Proof.Machine

open Claims

/-! ### What the dwells leave at the end of the second -/

theorem ViewsOk.timedSecond {s : State} (h : ViewsOk s) : ViewsOk (timedSecond s) := by
  have haged := viewsOk_secondKept.ages _ (viewsOk_secondKept.clock _ h)
  unfold Machine.timedSecond tickSlots
  exact List.foldlRecOn _ _ (motive := ViewsOk) haged fun u hu i _ => hu.tickSlot i

theorem ViewsOk.countedSecond {s : State} (h : ViewsOk s) : ViewsOk (countedSecond s) := by
  have hsettings : ((Machine.timedSecond s).onDisplay Machine.tickDwells).settings = s.settings :=
    dwelledSecond_changes s .settings (by decide)
  unfold Machine.countedSecond
  exact viewsOk_secondKept.language _ _ (by rw [hsettings]) h.timedSecond.tickDwells

section
variable {s : State} (hswap : s.tables.swapPending = false)

include hswap in
/-- With no swap pending, what the zones hold before it stands at the end of the second. -/
theorem takeSecond_after_noSwap : OnlyChanges [.dirty, .cursors, .panels] (beforeSwap s) (takeSecond s) := by
  have htables : (beforeSwap s).tables = s.tables := beforeSwap_changes s .tables (by decide)
  have hafter := takeSecond_after_swap s
  rwa [tickSwap_none (by rw [htables]; exact hswap)] at hafter

theorem bank_of_tables {u t : State} (h : t.tables = u.tables) : t.scene.bank = u.scene.bank :=
  congrArg TableStore.activeBank h

theorem countedSecond_bank (s : State) : (countedSecond s).scene.bank = s.scene.bank := by
  have htables : (countedSecond s).tables = s.tables := countedSecond_changes s .tables (by decide)
  exact bank_of_tables htables

theorem timedSecond_bank (s : State) : (timedSecond s).scene.bank = s.scene.bank := by
  have htables : (timedSecond s).tables = s.tables := timedSecond_changes s .tables (by decide)
  exact bank_of_tables htables

/-- The language count leaves every runtime. -/
theorem countedSecond_seq (s : State) :
    (countedSecond s).disp.seq.runtimes = (tickDwells (timedSecond s).scene (timedSecond s).disp).seq.runtimes ∧
      (countedSecond s).disp.seq.synthetic = (tickDwells (timedSecond s).scene (timedSecond s).disp).seq.synthetic := by
  unfold countedSecond
  generalize timedSecond s = u
  exact ⟨(tickLanguage_changes _ _ _).runtimes_eq (by decide), (tickLanguage_changes _ _ _).synthetic_eq (by decide)⟩

variable (hok : ViewsOk s) (hwf : s.tables.activeBank.zones.wf)
include hswap hok hwf

/-- A zone's runtime at the end of a second is the one its dwell leaves. -/
theorem takeSecond_find {z : Nat} {p : Fin 16} {row : PanelRow} {zone : Zone} (hz : (z, p, row, zone) ∈ s.scene.zones) :
    (takeSecond s).disp.seq.runtimes.find z =
      (tickDwells (timedSecond s).scene (timedSecond s).disp).seq.runtimes.find z := by
  have hlast : (takeSecond s).disp.seq.runtimes = (beforeSwap s).disp.seq.runtimes :=
    takeSecond_after_noSwap hswap .runtimes (by decide)
  have hbank := countedSecond_bank s
  have hsilence := tickSilence_find hok.countedSecond (show (countedSecond s).scene.bank.zones.wf by rw [hbank]; exact hwf)
    (z := z) (p := p) (row := row) (zone := zone) (by rw [zones_of_bank hbank]; exact hz)
  rw [hlast, beforeSwap_eq, hsilence, (countedSecond_seq s).1]

/-- A message's runtime at the end of a second is the one its dwell leaves. -/
theorem takeSecond_message {ref : MsgZone} {phase : Phase} {pl : MessagePlace} {rt : MessageRuntime}
    (hpl : messagePlace? s.scene phase ref = some pl)
    (hrt : (tickDwells (timedSecond s).scene (timedSecond s).disp).messageRuntime? ref = some rt) :
    (takeSecond s).disp.messageRuntime? ref = some rt := by
  have hruntimes : (takeSecond s).disp.seq.runtimes = (beforeSwap s).disp.seq.runtimes :=
    takeSecond_after_noSwap hswap .runtimes (by decide)
  have hsynthetic : (takeSecond s).disp.seq.synthetic = (beforeSwap s).disp.seq.synthetic :=
    takeSecond_after_noSwap hswap .synthetic (by decide)
  have hbank := countedSecond_bank s
  obtain ⟨hzones, hpanels⟩ := countedSecond_seq s
  have hcounted : (countedSecond s).disp.messageRuntime? ref = some rt :=
    (messageRuntime?_congr (fun w _ => by rw [hzones]) fun p _ => by rw [hpanels]).trans hrt
  have hsilence := tickSilence_message hok.countedSecond (show (countedSecond s).scene.bank.zones.wf by rw [hbank]; exact hwf)
    ((messagePlace?_congr hbank phase ref).trans hpl) hcounted
  rw [← beforeSwap_eq] at hsilence
  exact (messageRuntime?_congr (fun w _ => by rw [hruntimes]) fun p _ => by rw [hsynthetic]).trans hsilence

end

/-! ### The dwells where no duration ends -/

section
variable {s u : State} (hbank : u.scene.bank = s.scene.bank)
include hbank

theorem zone_of_bank (z : Nat) : u.scene.zone z = s.scene.zone z := by
  have hpanel (p : Fin 16) : u.scene.panel p = s.scene.panel p := congrArg (fun b => b.panels.find p.val) hbank
  unfold Scene.zone
  simp only [hbank, hpanel]

/-- A message place's second, over a state with the same records in its slots. -/
theorem dwells_message (hslots : ∀ i, (u.slots.get i).record? = (s.slots.get i).record?)
    (hphase : u.disp.seq.phase = s.disp.seq.phase) {ref : MsgZone} {pl : MessagePlace} {rt : MessageRuntime}
    (hpl : messagePlace? s.scene s.disp.seq.phase ref = some pl) (hrt : u.disp.messageRuntime? ref = some rt) :
    (tickDwells u.scene u.disp).messageRuntime? ref = some (pl.tick s.scene rt).1 := by
  have hpl' : messagePlace? u.scene u.disp.seq.phase ref = some pl := by
    rw [hphase, messagePlace?_congr hbank]
    exact hpl
  rw [tickDwells_message hpl' hrt, tick_congr (sc := s.scene) (sc' := u.scene) hbank hslots]

/-- A paged zone's second, over a state's boards. -/
theorem dwells_page {z : Fin 192} {p : Fin 16} {row : PanelRow} {zone : Zone} {board : Fin 8}
    {format first rows gap pages dwell index left : Nat} {snapshot : List (Option Nat)}
    (hz : s.scene.zone z = some (p, row, zone)) (hkind : zone.kind = .rows board format first rows gap pages dwell)
    (hrt : u.disp.seq.runtimes.find z.val = some (.page index snapshot left)) :
    (tickDwells u.scene u.disp).seq.runtimes.find z.val = some (if left ≤ 1 then
      .page ((index + 1) % pageCount (u.boards.get board).length first rows pages)
        (pageSnapshot (u.boards.get board) first rows
          ((index + 1) % pageCount (u.boards.get board).length first rows pages)) dwell
      else .page index snapshot (left - 1)) :=
  tickDwells_page (sc := u.scene) ((zone_of_bank hbank z).trans hz) hkind hrt

end

section
variable {s : State} (hswap : s.tables.swapPending = false) (hok : ViewsOk s) (hwf : s.tables.activeBank.zones.wf)
  (hnone : NoneEnds s)

theorem takeSecond_timedBoards (s : State) : (takeSecond s).boards = (timedSecond s).boards :=
  takeSecond_after_slots s .boards (by decide)

theorem takeSecond_agedBoards (s : State) : (takeSecond s).boards = (growAges (tickClock s)).boards :=
  takeSecond_after_ages s .boards (by decide)

include hnone in
/-- Up to the dwells a second leaves a message's runtime. -/
theorem timedSecond_message {ref : MsgZone} {rt : MessageRuntime} (hrt : s.disp.messageRuntime? ref = some rt) :
    (timedSecond s).disp.messageRuntime? ref = some rt := by
  rw [timedSecond_disp hnone]
  cases ref with
  | zone z => exact messageRuntime?_zone_iff.mpr (aged_keepsAlone rfl (messageRuntime?_zone_iff.mp hrt))
  | synthetic p =>
    have hsynthetic : (growAges (tickClock s)).disp.seq.synthetic = s.disp.seq.synthetic :=
      aged_changes s .synthetic (by decide)
    exact (congrArg (fun v : Vec (Option MessageRuntime) 16 => v.get p) hsynthetic).trans hrt

include hswap hok hwf hnone

/-- A message place takes its second as it stood before (R91, R96). -/
theorem takeSecond_ticks {ref : MsgZone} {pl : MessagePlace} {rt : MessageRuntime}
    (hpl : messagePlace? s.scene s.disp.seq.phase ref = some pl) (hrt : s.disp.messageRuntime? ref = some rt) :
    (takeSecond s).disp.messageRuntime? ref = some (pl.tick s.scene rt).1 := by
  have hbank := timedSecond_bank s
  obtain ⟨hphase, -⟩ := timedSecond_changes s .phase (by decide)
  refine takeSecond_message hswap hok hwf hpl ?_
  exact dwells_message hbank (timedSecond_record hnone) hphase hpl (timedSecond_message hnone hrt)

/-- A paged zone's counter over a second: the boards' part leaves it, and its records follow them (R91 to R93). -/
theorem takeSecond_page {z : Nat} {p : Fin 16} {row : PanelRow} {zone : Zone} {board : Fin 8}
    {format first rows gap pages dwell index left : Nat} {snapshot : List (Option Nat)}
    (hz : s.scene.zone z = some (p, row, zone)) (hlt : z < 192)
    (hkind : zone.kind = .rows board format first rows gap pages dwell) (hpages : pages ≠ 1)
    (hrt : s.disp.seq.runtimes.find z = some (.page index snapshot left)) :
    (takeSecond s).disp.seq.runtimes.find z = some (if left ≤ 1 then
      .page ((index + 1) % pageCount ((takeSecond s).boards.get board).length first rows pages)
        (pageSnapshot ((takeSecond s).boards.get board) first rows
          ((index + 1) % pageCount ((takeSecond s).boards.get board).length first rows pages)) dwell
      else .page index (snapshot.map (vacated (s.boards.get board) ((takeSecond s).boards.get board))) (left - 1)) := by
  have hin := mem_zones_of_zone hz
  have hfind := (aged_stage hwf).pages hin hkind hpages hrt
  rw [← timedSecond_disp hnone, ← takeSecond_agedBoards] at hfind
  rw [takeSecond_timedBoards] at hfind ⊢
  rw [takeSecond_find hswap hok hwf hin]
  exact dwells_page (z := ⟨z, hlt⟩) (timedSecond_bank s) hz hkind hfind

/-- A stepping TILE zone's counter over a second (R91, R102). -/
theorem takeSecond_tile {z : Nat} {p : Fin 16} {row : PanelRow} {zone : Zone} {first last dwell current left : Nat}
    (hz : s.scene.zone z = some (p, row, zone)) (hlt : z < 192) (hkind : zone.kind = .tile first last dwell)
    (hrt : s.disp.seq.runtimes.find z = some (.tile current left)) :
    (takeSecond s).disp.seq.runtimes.find z = some (if left ≤ 1 then
      .tile (if current = last then first else current + 1) dwell else .tile current (left - 1)) := by
  have hin := mem_zones_of_zone hz
  have hfind := aged_keepsAlone rfl hrt
  have hzone := (zone_of_bank (timedSecond_bank s) z).trans hz
  rw [← timedSecond_disp hnone] at hfind
  rw [takeSecond_find hswap hok hwf hin]
  exact tickDwells_tile (z := ⟨z, hlt⟩) hzone hkind hfind

/-- What a second does to the dwell of a message, expiry as at MESSAGE_DWELL_EXPIRY (R91, R96, R98). -/
theorem takeSecond_dwell {ref : MsgZone} {pl : MessagePlace} {rt : MessageRuntime}
    (hpl : messagePlace? s.scene s.disp.seq.phase ref = some pl) (hrt : s.disp.messageRuntime? ref = some rt) :
    (rt.dwell = none → (takeSecond s).disp.messageRuntime? ref = some rt) ∧ ∀ n, rt.dwell = some n →
      (2 ≤ n → (takeSecond s).disp.messageRuntime? ref = some { rt with dwell := some (n - 1) }) ∧
        (n ≤ 1 → ∃ u, exec (.messageDwellExpiry ref) s = .next u ∧
          (takeSecond s).disp.messageRuntime? ref = u.disp.messageRuntime? ref) := by
  have hticks := takeSecond_ticks hswap hok hwf hnone hpl hrt
  refine ⟨fun hrests => ?_, fun n hdwell => ⟨fun hmore => ?_, fun hlast => ?_⟩⟩
  · rw [hticks, tick_rests hrests]
  · rw [hticks, tick_counts hdwell hmore]
  · obtain ⟨hexpired, -⟩ := messageWritten MessagePlace.tick hpl hrt
    exact ⟨_, execMessageDwellExpiry_of hrt hdwell hlast, hticks.trans hexpired.symm⟩

end

/-! ### SILENT alone -/

theorem tickSilence_sets {s : State} (hdue : silenceDue s.settings.silenceLimit s.trunk = true) : tickSilence s =
    (s.onTrunk (TrunkPort.setSilence (saturate 65535 s.trunk.silence) true)).onDisplay rechooseViews := if_pos hdue

theorem execSilent_of {s : State} (hlimit : s.settings.silenceLimit ≠ 0) (hsilent : s.trunk.silent = false)
    (hreached : s.settings.silenceLimit ≤ min 65535 (s.trunk.silence + 1)) :
    ∃ t, exec .silent s = .next t ∧ t.trunk.silence = min 65535 (s.trunk.silence + 1) ∧ t.trunk.silent = true ∧
      ViewsRechosen s t ∧ OnlyChanges [.silence, .views, .synthetic, .runtimes, .dirty, .panels] s t := by
  have hdue : silenceDue s.settings.silenceLimit s.trunk = true :=
    decide_eq_true ⟨hlimit, hsilent, by rw [saturate_eq_min]; exact hreached⟩
  refine ⟨tickSilence s, congrArg Host.Outcome.next (if_pos hdue), (tickSilence_silence s).1,
    (tickSilence_silence s).2.mpr (.inr ⟨hlimit, by rw [(tickSilence_silence s).1]; exact hreached⟩), ?_,
    tickSilence_changes s⟩
  rw [tickSilence_sets hdue]
  exact viewsRechosen_of_rechosen rfl rfl

/-- Settles O24: each count by the stage of the second that steps it. -/
theorem secondStepsTheCounts : Obligations.SecondStepsTheCounts := by
  refine ⟨fun s => ⟨takeSecond s, rfl, fun i => ?_, takeSecond_language s, (takeSecond_silence s).1,
    (takeSecond_silence s).2, fun hswap p => ⟨takeSecond_record hswap p, fun row hrow honline hcycle => ?_,
      takeSecond_cursor_rests hswap p⟩, fun hswap hok => ?_, fun hswap _ hok hwf hnone => ⟨?_, ?_, ?_⟩⟩,
    fun s hlimit hsilent hreached => execSilent_of hlimit hsilent hreached⟩
  · rw [takeSecond_slots]
    cases s.slots.get i with
    | active r left => cases left <;> rfl
    | free | locked => rfl
  · exact takeSecond_cursor_moves hswap p hrow honline hcycle
  · have hkept : ViewsOk (takeSecond s) := viewsOk_secondKept.takeSecond hok
    refine ⟨hkept.viewsChosen, fun p row hrow => ?_⟩
    have hmoved := takeSecond_moved hswap hok hrow
    generalize takeSecond s = t at hmoved ⊢
    exact hmoved.command
  · intro z p row zone board format first rows gap pages dwell index snapshot left hz hlt hkind hpages hrt
    have hpage := takeSecond_page hswap hok hwf hnone hz hlt hkind hpages hrt
    generalize takeSecond s = t at hpage ⊢
    split
    next hlast =>
      rw [if_pos hlast] at hpage
      exact hpage
    next hmore =>
      rw [if_neg hmore] at hpage
      exact hpage
  · intro z p row zone first last dwell current left hz hlt hkind hrt
    exact takeSecond_tile hswap hok hwf hnone hz hlt hkind hrt
  · intro ref pl rt hpl hrt
    exact takeSecond_dwell hswap hok hwf hnone hpl hrt

end Sys2Proof.Machine
